-- ==== Sys2Proof/Word.lean ====
section
/-! DEFINITION. The word types of the HV960 and their plainest arithmetic. -/

namespace Sys2Proof

/-- One byte of memory. -/
abbrev Byte := BitVec 8

/-- A register or a scalar value (R11: registers are 32 bits wide). -/
abbrev Word := BitVec 32

/-- A 40-bit device address held in an address register (R28, R220). -/
abbrev DevAddr := BitVec 40

/-- A weft instruction word (R241). -/
abbrev WeftWord := BitVec 64

/-- The all-ones word, at which event counters saturate (R17). -/
def Word.ones : Word := BitVec.allOnes 32

end Sys2Proof
end

