-- ==== Sys2Proof/Syntax.lean ====
section
/-! DEFINITION. The commands of the HV960: one constructor for every row of spec/opcode_table.json, with the operands of
the row. The weft rows carry the context that issues the instruction and the fields of chapter 09's encodings. -/

namespace Sys2Proof

/-- The context whose sequencer issues a weft instruction: the woven context of a physical core, or one of the two
loose contexts of a logical core's physical core (R220, R276). -/
inductive Ctx where
  | woven (core : Fin 72)
  | loose (core : Fin 72) (slot : Fin 2)
  deriving DecidableEq, Repr

/-- The physical core of a context. -/
def Ctx.core : Ctx → Nat
  | .woven p => p.val
  | .loose p _ => p.val

/-- Operand b of the scalar ALU: a selector (major 0x01) or an immediate (major 0x02). -/
inductive BSrc where
  | sel (s : BitVec 7)
  | imm (v : BitVec 32)
  deriving DecidableEq, Repr

/-- The fields of a scalar ALU instruction (Table, Scalar ALU encodings). -/
structure Alu where
  rd : BitVec 5
  sa : BitVec 7
  b : BSrc
  deriving DecidableEq, Repr

/-- The count of LOOP (src = 0 or 1). -/
inductive LoopCount where
  | imm (n : BitVec 16)
  | sel (s : BitVec 7)
  deriving DecidableEq, Repr

/-- The operand of WAITPICK (src = 0 or 1). -/
inductive PickArg where
  | imm (n : BitVec 20)
  | sel (s : BitVec 7)
  deriving DecidableEq, Repr

/-- The operand of CFG.GANG (src = 0 or 1). -/
inductive GangArg where
  | imm (mode : BitVec 2)
  | sel (s : BitVec 7)
  deriving DecidableEq, Repr

/-- The operand of CFG.NUM (src = 0 or 1). -/
inductive NumArg where
  | imm (ftz : Bool) (statMode : BitVec 2)
  | sel (s : BitVec 7)
  deriving DecidableEq, Repr

/-- The fields of SE.XFER (Table, Stream encodings). With ireg, idx holds the scalar register in its low five bits. -/
structure Xfer where
  slot : BitVec 4
  ireg : Bool
  idx : BitVec 12
  aen : Bool
  an : BitVec 4
  o0 : BitVec 12
  o1 : BitVec 4
  o2 : BitVec 4
  oen : Bool
  osr : BitVec 5
  sp : BitVec 4
  deriving DecidableEq, Repr

/-- What SE.INV invalidates. -/
inductive InvArg where
  | all
  | reg (r : BitVec 5)
  | idx (i : BitVec 12)
  deriving DecidableEq, Repr

/-- The fields of MPASS (Table, MPASS encoding). -/
structure MPass where
  target : BitVec 3
  pair : BitVec 3
  mcount : BitVec 9
  new : Bool
  t0 : BitVec 4
  acc : Bool
  shf : BitVec 8
  rsel : BitVec 6
  aslot : BitVec 4
  wslot : BitVec 4
  deriving DecidableEq, Repr

/-- Operand b of a vector instruction: an array at an address register, or a broadcast scalar. -/
inductive VSrc where
  | arr (a : BitVec 4)
  | sel (s : BitVec 7)
  deriving DecidableEq, Repr

/-- The fields of a vector elementwise instruction (Table, Vector elementwise encoding). -/
structure Vop where
  dA : BitVec 4
  aA : BitVec 4
  b : VSrc
  fp : Bool
  sat : Bool
  n : BitVec 16
  deriving DecidableEq, Repr

/-- The fields of REQ (Table, REQ encoding). -/
structure Req where
  accF : Bool
  tgt : BitVec 3
  chan : Bool
  cbase : BitVec 12
  rnd : BitVec 2
  sat : Bool
  stat : BitVec 3
  maxabs : BitVec 3
  srcMem : Bool
  src : BitVec 6
  rows : BitVec 9
  oslot : BitVec 4
  pA : BitVec 4
  deriving DecidableEq, Repr

/-- One class operand of WCOMB. -/
structure WClass where
  present : Bool
  engine : BitVec 2
  tile : BitVec 4
  deriving DecidableEq, Repr

/-- The fields of WCOMB. -/
structure Wcomb where
  c0 : WClass
  c8 : WClass
  c16 : WClass
  sh : BitVec 5
  sat : Bool
  dA : BitVec 4
  rows : BitVec 9
  deriving DecidableEq, Repr

/-- The fields of POOL. -/
structure Pool where
  islot : BitVec 4
  dA : BitVec 4
  avg : Bool
  divMode : BitVec 2
  glob : Bool
  ofmt : BitVec 2
  sat : Bool
  fdiv : BitVec 16
  deriving DecidableEq, Repr

/-- The fields of DWCONV. -/
structure Dwconv where
  islot : BitVec 4
  dA : BitVec 4
  wA : BitVec 4
  wfmt : BitVec 2
  deriving DecidableEq, Repr

/-- The fields of EMIT.DET. -/
structure EmitDet where
  pA : BitVec 4
  q : BitVec 3
  network : BitVec 16
  output : BitVec 16
  deriving DecidableEq, Repr

/-- The fields of VMAXABS. -/
structure Vmaxabs where
  rd : BitVec 5
  fp : Bool
  srcMem : Bool
  src : BitVec 6
  rows : BitVec 9
  deriving DecidableEq, Repr

/-- The report of a threader check that follows a role's path: logical core, check code, variant, weft index, pick, engine,
the figures needed and allowed, and the detail (Table, Threader report). -/
structure ThrReport where
  core : BitVec 6
  check : BitVec 8
  variant : BitVec 16
  index : BitVec 20
  pick : BitVec 20
  engine : BitVec 3
  needed : BitVec 32
  allowed : BitVec 32
  detail : BitVec 32
  deriving DecidableEq, Repr

/-- What the threader finds in a loose program: the code and weft index of a failed check, or the scratchpad range, ganging mode and
subnormal flushing that its image declares, and the native code (R274, Table, Loose image header). -/
inductive LooseResult where
  | failed (check : BitVec 8) (index : BitVec 20)
  | image (spOff spSize : BitVec 32) (mode : BitVec 2) (ftz : Bool) (native : List (BitVec 8))
  deriving DecidableEq, Repr

/-- What a decode core finds of one 16 × 16 block of luma (R305): an intra-predicted sample, the largest magnitude of a residual
coefficient level, the largest |mvx| + |mvy| in quarter pels of a prediction block that overlaps it, and whether some such
block's reference is not the nearest preceding picture. -/
structure BlockInfo where
  intra : Bool
  level : BitVec 16
  motion : BitVec 16
  far : Bool
  deriving DecidableEq, Repr

/-- A decoded picture: size, luma and interleaved chroma samples, its blocks in raster order, and the buffer indices in the
stream's reference set after it. -/
structure Picture where
  w : BitVec 13
  h : BitVec 13
  luma : List (BitVec 8)
  chroma : List (BitVec 8)
  blocks : List BlockInfo
  refs : List (BitVec 16)
  deriving DecidableEq, Repr

/-- How decoding ends (R302, R308): a syntax or semantic error, a fault of the decode core, or a picture. -/
inductive DecodeResult where
  | error
  | fault
  | picture (p : Picture)
  deriving DecidableEq, Repr

/-- How an encoder ends a descriptor (R310): its source or reference reads as uncorrectable, or the coded bytes. -/
inductive EncodeResult where
  | uncorrectable
  | coded (bytes : List (BitVec 8)) (recon : List (BitVec 8))
  deriving DecidableEq, Repr

/-- How DRAM initialisation ends (R333, R334): dies of 16 Gb or 8 Gb, two ranks or one, and the refresh management threshold of mode
register 27; or a cause and the channels that caused it. -/
inductive DramInit where
  | ok (dense : Bool) (two : Bool) (rfm : BitVec 16)
  | fail (cause : BitVec 3) (chans : BitVec 16)
  deriving DecidableEq, Repr

/-- What the oscillator measurement of a rank finds (R354, R355): within range, more than 1/16 of a unit interval off, beyond the
trained range, or no measurement. -/
inductive OscResult where
  | ok
  | adjust
  | limit
  | failed
  deriving DecidableEq, Repr

/-- The on-chip memories of R359. -/
inductive SramKind where
  | scratchpad
  | accumulators
  | program
  | descriptorCache
  | registers
  | commandQueues
  | recordQueue (queue : Fin 8) (entry : BitVec 8)
  | carryWays (role : Fin 64)
  | programWays
  | weightStore
  | readCache
  | systemClean
  | systemDirty
  | checkCache
  | appL2
  | decoderBuffers
  | ispLines
  | other
  deriving DecidableEq, Repr

/-- What a read of an on-chip word finds (R360). -/
inductive SramResult where
  | clean
  | corrected
  | uncorrectable
  deriving DecidableEq, Repr

/-- Activity of an estimator period (R391): counts of events 0 to 10 of each compute die, and of events 11 to 14 of the I/O die. -/
structure PowerCounts where
  die0 : List (BitVec 32)
  die1 : List (BitVec 32)
  io : List (BitVec 32)
  deriving DecidableEq, Repr

/-- The PLLs whose loss of lock R429 names: of a cluster, of a compute die, of the I/O die. -/
inductive Pll where
  | cluster (g : Fin 8)
  | die (d : Fin 2)
  | io
  deriving DecidableEq, Repr

/-- Levels of the strap pins at internal power-on release (R425). -/
structure Straps where
  bootsel : BitVec 2
  clkmode : BitVec 2
  golden : Bool
  test : Bool
  deriving DecidableEq, Repr

/-- A boot flash device that answers and whose slot directory resolves (R437): the bytes of each slot that it lists. -/
structure FlashMedia where
  a : Option (List (BitVec 8))
  b : Option (List (BitVec 8))
  golden : Option (List (BitVec 8))
  deriving DecidableEq, Repr

/-- The files a boot server delivers (R435): steward firmware, threader, application-core firmware, hedge image. -/
structure NetMedia where
  fw : List (BitVec 8)
  thr : Option (List (BitVec 8))
  app : Option (List (BitVec 8))
  hdg : Option (List (BitVec 8))
  deriving DecidableEq, Repr

/-- What the boot sources hold when the boot ROM reads them: SPI NOR, eMMC, boot server. -/
structure BootMedia where
  spi : Option FlashMedia
  emmc : Option FlashMedia
  net : Option NetMedia
  deriving DecidableEq, Repr

/-- A trained PCIe link and what the host's enumeration leaves: lanes, generation, MSI-X enabled and not function-masked. -/
structure PcieLink where
  width : BitVec 3
  speed : BitVec 3
  msix : Bool
  deriving DecidableEq, Repr

/-- What a DTLS handshake offers (R454, R455): a profile the device supports, the SHA-384 of the public key of the chain's root,
whether every signature of the chain verifies, and whether the validity dates hold at the timebase. -/
structure Handshake where
  profile : Bool
  root : List (BitVec 8)
  chain : Bool
  dates : Bool
  deriving DecidableEq, Repr

/-- The commands of the HV960. -/
inductive Instr where
  /-- R43: The timebase reaches a multiple of 1,000 ns and the global pick sequencer signals the new pick number to every unit. -/
  | pickBoundary
  /-- R49: A core's lag reaches 3 and it is declared faulty and halted with PICK_MISS. -/
  | lagLimitReached (l : Fin 64) (stalled : BitVec 4)
  /-- R374: The load of program, carry-state shadow and parameter sets into the spare completes. -/
  | failoverLoadComplete (g : Fin 8) (progError : Bool) (shadowError : Bool)
  /-- R373: The spare resumes the role at the first re-entry point at least 2 picks after the load completed. -/
  | spareResume (g : Fin 8)
  /-- R233: SPARE initialisation of a core ends and the core enters SPARE. -/
  | spareInitComplete (p : Fin 72)
  /-- R49: Every woven command placed at a pick boundary completes and the core acknowledges that pick. -/
  | pickAcknowledge (p : Fin 72)
  /-- R48: The input data a waiting woven command names becomes present and the command starts. -/
  | commandInputPresent (x : Ctx)
  /-- R51: Input data of a waiting command is still incomplete at the end of the pick after its woven pick; it proceeds with zeros and poisoned tiles. -/
  | inputWaitExpiry (x : Ctx)
  /-- R46: A frame tick ends and the tick boundary actions are performed in order. -/
  | tickBoundary
  /-- R162: The last byte of a role's carry-state shadow copy is written and the completion mark records the tick. -/
  | carryShadowComplete (l : Fin 64)
  /-- R475: With no weave running, the telemetry objects are latched every 100 ms of timebase. -/
  | telemetryLatchIdle
  /-- R59: A retirement slot of the weave comes due and retires a record, hole, FILLER, FRAME_END or owed entry, or stays unused. -/
  | retirementSlot
  /-- R66: WV_CTRL.cmd LOAD starts loading the image at WV_IMG as active or standby image. -/
  | weaveLoad (master : BitVec 8)
  /-- R66: The load checks and threader translation end with LOADED, standby loaded, or FAILED with WV_LOAD_ERR. -/
  | loadComplete (report : Option ThrReport)
  /-- R67: WV_CTRL.cmd START arms the weave at the start pick. -/
  | weaveStart
  /-- R67: The start pick is reached and the first tick of the armed weave begins. -/
  | weaveStartPick
  /-- R68: WV_CTRL.cmd STOP returns an armed weave to LOADED or makes a stop pending at the next tick boundary. -/
  | weaveStop (master : BitVec 8)
  /-- R69: WV_CTRL.cmd REPLACE makes a changeover to the standby image pending at the next tick boundary. -/
  | weaveReplace (master : BitVec 8)
  /-- R64: WV_CTRL.cmd ABANDON discards the standby image and cancels a pending STOP or REPLACE. -/
  | weaveAbandon (master : BitVec 8)
  /-- R382: WV_CTRL.cmd HEDGE enters hedge mode at once. -/
  | weaveHedge
  /-- R65: A write of 1 to WV_CTRL.lock locks the LOCK registers and the LOAD, STOP, REPLACE and ABANDON commands. -/
  | weaveLock
  /-- R383: The hedge weave starts at the first pick at least 20,000 picks after entry. -/
  | hedgeWeaveStart
  /-- R230: CORE_CTRL.cmd PARK stops the sequencer placing commands and waits for engines to drain. -/
  | corePark (p : Fin 72)
  /-- R230: Every in-flight command of a parking core completes and the core enters PARKED. -/
  | parkComplete (p : Fin 72)
  /-- R230: A core has not parked 10 µs after the request; passes are aborted and it halts with PARK_ABORT. -/
  | parkTimeout (p : Fin 72) (stalled : BitVec 6)
  /-- R232: CORE_CTRL.cmd RESUME moves a PARKED core to RUNNING at the instruction at which it parked. -/
  | coreResume (p : Fin 72)
  /-- R233: CORE_CTRL.cmd HALT halts the core at once with reason EXT_HALT. -/
  | coreHalt (p : Fin 72) (master : BitVec 8) (stalled : BitVec 4)
  /-- R233: CORE_CTRL.cmd UNHALT moves a HALTED core without a role and of class program or request to PARKED. -/
  | coreUnhalt (p : Fin 72)
  /-- R233: CORE_CTRL.cmd SPARE starts SPARE initialisation of a PARKED or HALTED core without a role. -/
  | coreSpare (p : Fin 72)
  /-- R359: After an uncorrectable error in scratchpad or accumulators the core halts with UNCORR_DATA at its next pass boundary. -/
  | uncorrDataHalt (p : Fin 72) (addr : BitVec 25)
  /-- R93: A requested ganging mode takes effect after every engine has drained, plus 4 cycles. -/
  | gangModeChange (p : Fin 72)
  /-- R116: A pending stat_mode change takes effect after earlier stores complete their statistics, clearing the slots. -/
  | statModeChange (p : Fin 72)
  /-- R94: An external write to CORE_GANG.mode takes effect only in PARKED, HALTED or SPARE, else sets rej. -/
  | coreGangWrite (p : Fin 72) (v : Word)
  /-- R116: An external write to CORE_NUMCFG takes effect only in PARKED, HALTED or SPARE, else sets rej. -/
  | coreNumcfgWrite (p : Fin 72) (v : Word)
  /-- R151: A write of CORE_MAXABS_CLR clears the per-tensor or per-channel max-abs registers, or is rejected while the core runs. -/
  | coreMaxabsClr (p : Fin 72) (v : Word)
  /-- R179: A write to CORE_SEINV sends an invalidation of one or all cached descriptors to that core. -/
  | coreSeinv (p : Fin 72) (v : Word)
  /-- R179: A write to SYS_SDT_INV broadcasts a descriptor invalidation to every core and decode core. -/
  | sysSdtInv (v : Word)
  /-- R189: A write to SYS_SDT_BASE is accepted only outside ARMED, RUNNING and HEDGE with aligned address. -/
  | sysSdtBaseWrite (hi : Bool) (v : Word) (master : BitVec 8)
  /-- R166: A write of SYS_SC_WINDOW.ways changes the system cache window in allowed weave states, starting write-back and zeroing. -/
  | scWindowWrite (v : Word) (master : BitVec 8)
  /-- R166: Ways joining or leaving the window have been written back, zeroed or invalidated and flushing clears. -/
  | scWindowFlushDone
  /-- R161: A write to CLU_CCINV invalidates every line of the cluster read cache. -/
  | readCacheInvalidate (g : Fin 8)
  /-- R228: A software write to CLU_ROLEn changes a role mapping and its epoch when weave and core states allow. -/
  | roleTableWrite (l : Fin 64) (v : Word)
  /-- R221: A write to CORE_PSHn goes to the role's shadow parameter set and takes part in the next copy. -/
  | parameterShadowWrite (p : Fin 72) (n : Fin 64) (v : Word)
  /-- R222: An external write to CORE_Sn or CORE_An takes effect only while PARKED or HALTED, else sets reg_rej. -/
  | coreRegisterWrite (p : Fin 72) (n : Fin 64) (v : Word)
  /-- R231: A write to a core's program memory is accepted only while PARKED or HALTED, else sets prog_busy. -/
  | programWrite (p : Fin 72) (off : BitVec 18) (v : Word)
  /-- R32: An access from outside a core to its scratchpad or accumulators waits for a free bank cycle. -/
  | outsideCoreAccess (addr : BitVec 40) (n : BitVec 13) (write : Option (List (BitVec 8))) (master : BitVec 8)
  /-- R28: An access reaches the system fabric and is decoded as a whole, completing or ending with a bus error. -/
  | fabricAccess (addr : BitVec 40) (n : BitVec 13) (write : Option (List (BitVec 8))) (master : BitVec 8)
  /-- R13: A write to a register with no row of its own sets its writable fields under the access codes and lock rules. -/
  | registerWrite (addr : BitVec 40) (v : Word) (master : BitVec 8)
  /-- R182: A push or message arrives at a receiver and lands, or is dropped for a stale role or an occupied or undeclared slot. -/
  | pushArrival (n : Nat)
  /-- R182: A stale-role notice reaches the sender's stream engine and is counted. -/
  | staleNotice (n : Nat)
  /-- R227: A SYNC barrier has not completed by the end of the pick after its woven pick and the waiting cores continue. -/
  | syncExpiry (g : Fin 8) (b : Fin 8)
  /-- R241: Weft NOP does nothing. -/
  | nop (x : Ctx)
  /-- R234: Weft HALT halts the core with HALT_INSN, or ends a loose job DONE. -/
  | halt (x : Ctx)
  /-- R226: Weft JUMP sets the PC to the target. -/
  | jump (x : Ctx) (target : BitVec 20)
  /-- R226: Weft CALL pushes the return index and jumps, or halts with STACK. -/
  | call (x : Ctx) (target : BitVec 20)
  /-- R226: Weft RET pops the return index, or halts with STACK or LOOP. -/
  | ret (x : Ctx)
  /-- R226: Weft LOOP opens a loop with a count, skips its body on count 0, or halts with LOOP. -/
  | loop (x : Ctx) (count : LoopCount) (last : BitVec 20)
  /-- R224: Weft WAITPICK ends a pick section and waits for the named pick offset, or halts with PICK_ORDER. -/
  | waitpick (x : Ctx) (n : PickArg)
  /-- R227: Weft SYNC waits at a cluster barrier until every core in its mask has reached it. -/
  | sync (x : Ctx) (barrier : BitVec 3) (mask : BitVec 8)
  /-- R397: Weft PHASE.HINT requests a hint level for the issuing core from a lead of picks later. -/
  | phaseHint (x : Ctx) (level : BitVec 2) (lead : BitVec 11)
  /-- R247: Weft CARRY.BEGIN opens a carry region, deciding on its first use in the tick whether it is carried. -/
  | carryBegin (x : Ctx) (region : BitVec 12)
  /-- R247: Weft CARRY.END closes the open carry region. -/
  | carryEnd (x : Ctx)
  /-- R250: Scalar ADD writes a + b modulo 2^32. -/
  | add (x : Ctx) (f : Alu)
  /-- R250: Scalar SUB writes a − b modulo 2^32. -/
  | sub (x : Ctx) (f : Alu)
  /-- R250: Scalar MUL writes the low 32 bits of a × b. -/
  | mul (x : Ctx) (f : Alu)
  /-- R250: Scalar MULHS writes the high 32 bits of the signed product. -/
  | mulhs (x : Ctx) (f : Alu)
  /-- R250: Scalar MULHU writes the high 32 bits of the unsigned product. -/
  | mulhu (x : Ctx) (f : Alu)
  /-- R250: Scalar AND writes a and b. -/
  | and (x : Ctx) (f : Alu)
  /-- R250: Scalar OR writes a or b. -/
  | or (x : Ctx) (f : Alu)
  /-- R250: Scalar XOR writes a xor b. -/
  | xor (x : Ctx) (f : Alu)
  /-- R250: Scalar SHL shifts a left by b and 31. -/
  | shl (x : Ctx) (f : Alu)
  /-- R250: Scalar SHR shifts a right, unsigned. -/
  | shr (x : Ctx) (f : Alu)
  /-- R250: Scalar SRA shifts a right, arithmetic. -/
  | sra (x : Ctx) (f : Alu)
  /-- R250: Scalar MIN writes the signed minimum. -/
  | min (x : Ctx) (f : Alu)
  /-- R250: Scalar MAX writes the signed maximum. -/
  | max (x : Ctx) (f : Alu)
  /-- R250: Scalar MINU writes the unsigned minimum. -/
  | minu (x : Ctx) (f : Alu)
  /-- R250: Scalar MAXU writes the unsigned maximum. -/
  | maxu (x : Ctx) (f : Alu)
  /-- R250: Scalar SLT writes 1 when a < b signed, else 0. -/
  | slt (x : Ctx) (f : Alu)
  /-- R250: Scalar SLTU writes 1 when a < b unsigned, else 0. -/
  | sltu (x : Ctx) (f : Alu)
  /-- R250: Scalar MOVI writes the immediate. -/
  | movi (x : Ctx) (rd : BitVec 5) (v : BitVec 32)
  /-- R244: MOVA writes a 40-bit immediate to an address register. -/
  | mova (x : Ctx) (ad : BitVec 4) (v : BitVec 40)
  /-- R244: ADDA adds a sign-extended selected value to an address register. -/
  | adda (x : Ctx) (ad : BitVec 4) (an : BitVec 4) (sel : BitVec 7)
  /-- R244: ADDAI adds a signed 32-bit immediate to an address register. -/
  | addai (x : Ctx) (ad : BitVec 4) (an : BitVec 4) (v : BitVec 32)
  /-- R244: MADDA adds a selected value times a signed 16-bit immediate to an address register. -/
  | madda (x : Ctx) (ad : BitVec 4) (an : BitVec 4) (sel : BitVec 7) (v : BitVec 16)
  /-- R244: MOVAS zero-extends a selected value into an address register. -/
  | movas (x : Ctx) (ad : BitVec 4) (sel : BitVec 7)
  /-- R251: SLD loads a 32-bit word from the core's scratchpad into a scalar register. -/
  | sld (x : Ctx) (rd : BitVec 5) (an : BitVec 4) (off : BitVec 16)
  /-- R251: SST stores a selected value as a 32-bit word in the core's scratchpad. -/
  | sst (x : Ctx) (sel : BitVec 7) (an : BitVec 4) (off : BitVec 16)
  /-- R251: LDA loads 40 bits of a 64-bit scratchpad word into an address register. -/
  | lda (x : Ctx) (ad : BitVec 4) (an : BitVec 4) (off : BitVec 16)
  /-- R252: CFG.GANG requests a ganging mode, taking effect under R93. -/
  | cfgGang (x : Ctx) (v : GangArg)
  /-- R252: CFG.NUM writes ftz and stat_mode, taking effect under R116. -/
  | cfgNum (x : Ctx) (v : NumArg)
  /-- R253: SE.XFER resolves a descriptor and starts a transfer of its kind in a stream slot. -/
  | seXfer (x : Ctx) (f : Xfer)
  /-- R254: SE.INV invalidates one or all cached descriptors of the core. -/
  | seInv (x : Ctx) (v : InvArg)
  /-- R255: MPASS runs one matrix pass on an engine or the gang. -/
  | mpass (x : Ctx) (f : MPass)
  /-- R256: VADD adds two INT32 or FP32 arrays or a broadcast scalar. -/
  | vadd (x : Ctx) (f : Vop)
  /-- R256: VSUB subtracts elementwise. -/
  | vsub (x : Ctx) (f : Vop)
  /-- R256: VMUL multiplies elementwise. -/
  | vmul (x : Ctx) (f : Vop)
  /-- R256: VMIN takes the elementwise minimum. -/
  | vmin (x : Ctx) (f : Vop)
  /-- R256: VMAX takes the elementwise maximum. -/
  | vmax (x : Ctx) (f : Vop)
  /-- R256: VAND ands INT32 elements. -/
  | vand (x : Ctx) (f : Vop)
  /-- R256: VOR ors INT32 elements. -/
  | vor (x : Ctx) (f : Vop)
  /-- R256: VXOR xors INT32 elements. -/
  | vxor (x : Ctx) (f : Vop)
  /-- R256: VSHL shifts INT32 elements left with narrowing. -/
  | vshl (x : Ctx) (f : Vop)
  /-- R256: VSRA shifts INT32 elements right, arithmetic. -/
  | vsra (x : Ctx) (f : Vop)
  /-- R256: VCVTI converts FP32 elements to INT32. -/
  | vcvti (x : Ctx) (f : Vop)
  /-- R256: VCVTF converts INT32 elements to FP32. -/
  | vcvtf (x : Ctx) (f : Vop)
  /-- R256: VCOPY copies an array. -/
  | vcopy (x : Ctx) (f : Vop)
  /-- R257: REQ requantises accumulator or scratchpad values into a STORE stream. -/
  | req (x : Ctx) (f : Req)
  /-- R258: WCOMB combines split-form class tiles into INT32 results. -/
  | wcomb (x : Ctx) (f : Wcomb)
  /-- R259: POOL computes max or average pooling from a window-mode stream. -/
  | pool (x : Ctx) (f : Pool)
  /-- R259: DWCONV computes a depthwise convolution on the vector engine. -/
  | dwconv (x : Ctx) (f : Dwconv)
  /-- R260: BOXDEC.H decodes a range of positions into the score histogram. -/
  | boxdecH (x : Ctx) (pA : BitVec 4) (clear : Bool) (first : BitVec 20) (count : BitVec 16)
  /-- R260: BOXDEC.E emits kept candidates of a range of positions into the list. -/
  | boxdecE (x : Ctx) (pA : BitVec 4) (first : BitVec 20) (count : BitVec 16)
  /-- R209: NMS.SORT sorts the candidate list into decreasing priority. -/
  | nmsSort (x : Ctx) (pA : BitVec 4)
  /-- R210: NMS.SUP runs a range of suppression rows. -/
  | nmsSup (x : Ctx) (pA : BitVec 4) (i0 : BitVec 10) (i1 : BitVec 10)
  /-- R211: NMS.OUT writes the first S kept entries as the survivor list. -/
  | nmsOut (x : Ctx) (pA : BitVec 4)
  /-- R214: CROP selects survivors and resamples them into NV12 crops. -/
  | crop (x : Ctx) (pA : BitVec 4) (first : BitVec 6) (count : BitVec 6)
  /-- R212: EMIT.DET places survivors into a record queue as DETECTION entries. -/
  | emitDet (x : Ctx) (f : EmitDet)
  /-- R262: EMIT.REC appends record entries from a list to a record queue. -/
  | emitRec (x : Ctx) (lA : BitVec 4) (q : BitVec 3) (n : BitVec 10)
  /-- R131: STAT.OUT copies a statistics slot to memory and clears it. -/
  | statOut (x : Ctx) (slot : BitVec 2) (dA : BitVec 4)
  /-- R151: MAXABS.OUT copies the max-abs registers to memory and clears them. -/
  | maxabsOut (x : Ctx) (dA : BitVec 4)
  /-- R264: VMAXABS reduces a source to the key of its largest element in a scalar register. -/
  | vmaxabs (x : Ctx) (f : Vmaxabs)
  /-- R271: A write to WV_JQn_TAIL submits loose job descriptors when the advance fits. -/
  | jobSubmit (n : Fin 16) (v : Word) (master : BitVec 8)
  /-- R290: A write to WV_JQn_CANCEL cancels one or all entries of a client. -/
  | jobCancel (n : Fin 16) (v : Word) (master : BitVec 8)
  /-- R289: Writing WV_JQn_CFG.enable 0 ends the client's resident and saved jobs CANCELLED. -/
  | jobQueueDisable (n : Fin 16) (v : Word) (master : BitVec 8)
  /-- R286: A pre-empted job's in-flight work has drained and its save begins. -/
  | jobDrainComplete (num : Fin 64)
  /-- R287: The last byte of a pre-empted job's save has been written and its context is freed. -/
  | jobSaveComplete (num : Fin 64)
  /-- R288: A saved job's restore completes and it resumes at its saved PC. -/
  | jobRestoreComplete (num : Fin 64)
  /-- R290: A write to CORE_LALLOW or CORE_LTILES takes effect at the next pick boundary. -/
  | looseAllowanceWrite (p : Fin 72) (tiles : Bool) (v : Word)
  /-- R274: WV_LPT_CTRL TRANSLATE starts the threader on a loose weft program. -/
  | translate (v : Word)
  /-- R274: Loose translation ends with the image written or a failed check. -/
  | translateDone (r : LooseResult)
  /-- R292: A frame received on NET0 or NET1 is classified and dropped, queued to software, or taken as an RTP packet. -/
  | ethernetFrameReceive (port : Fin 2) (time : BitVec 64) (frame : List (BitVec 8))
  /-- R297: The reassembly timeout of an access unit elapses and it closes incomplete. -/
  | reassemblyTimeout (n : Fin 512)
  /-- R311: A write to NET_SWTX_TAIL submits frames from the software transmit queue. -/
  | swTxSubmit (port : Fin 2) (v : Word)
  /-- R294: A write to a stream table entry is accepted only while disabled, or toggles enable. -/
  | streamEntryWrite (n : Fin 512) (w : Fin 16) (v : Word)
  /-- R299: NET_ANC_CMT.go replaces a stream's RTP anchor in one step. -/
  | anchorCommit
  /-- R301: A decode slot opens, consumes pending access units and starts decoding one. -/
  | decodeSlotOpen (i : BitVec 16) (unsupported : Bool) (absent : Bool)
  /-- R303: Decoding ends and the outputs, change map and frame handle are written with a verdict. -/
  | decodeComplete (k : Fin 16) (r : DecodeResult)
  /-- R303: A decode slot reaches its deadline and is cut off with verdict 5. -/
  | decodeDeadline (k : Fin 16)
  /-- R310: A write to the encoder command ring tail submits descriptors. -/
  | encoderSubmit (e : Fin 2) (v : Word)
  /-- R310: An encoder finishes a descriptor and writes its status word. -/
  | encodeComplete (e : Fin 2) (r : EncodeResult)
  /-- R310: Writing the encoder ring enable 0 cancels pending descriptors. -/
  | encoderDisable (e : Fin 2) (v : Word)
  /-- R312: A write to TBS_STEP_HI starts a timebase step, absorbed or applied by weave state. -/
  | timebaseStep (v : Word)
  /-- R44: A timebase step has been absorbed through the rate offset and stepping clears. -/
  | stepAbsorbed
  /-- R311: A write to TBS_SET_HI loads the timebase, only in non-running weave states. -/
  | timebaseSet (v : Word)
  /-- R311: At each whole second of the timebase TBS_PPS drives a 1 ms pulse on its GPIO. -/
  | ppsPulse (high : Bool)
  /-- R315: An active VSYNC edge opens a pixel-port frame, drawing a buffer and fixing its capture time. -/
  | pixelVsyncEdge (n : Fin 4) (time : BitVec 64)
  /-- R314: A line of active pixels ends and is checked against the width. -/
  | pixelLineEnd (n : Fin 4) (samples : List (BitVec 16))
  /-- R322: A pixel-port frame closes after its data is written or processed and is stamped or discarded. -/
  | pixelFrameClose (n : Fin 4)
  /-- R315: PIX_TIMEOUT elapses since a frame opened and it closes FRAME_TIMEOUT. -/
  | pixelFrameTimeout (n : Fin 4)
  /-- R320: No VSYNC edge arrives for PIX_NOSIG ms and signal becomes 0. -/
  | pixelNoSignal (n : Fin 4)
  /-- R315: The 1 ms PCLK measurement ends and an over-rate in-line frame closes MALFORMED_FRAME. -/
  | pclkMeasure (n : Fin 4) (khz : BitVec 18)
  /-- R316: A write to PIX_CTRL.enable enables a port at the next VSYNC or discards an open frame. -/
  | pixelPortEnable (n : Fin 4) (v : Word)
  /-- R323: An ISP in-line slot or memory pass opens and takes the port's pending frames. -/
  | ispSlotOpen (i : BitVec 16)
  /-- R322: A memory pass completes and writes outputs, map, statistics and handle. -/
  | ispPassComplete
  /-- R324: A memory pass reaches its deadline and is cut off with MISSING_INPUT. -/
  | ispPassCutoff
  /-- R332: ISP_CTXn_COMMIT.go marks the shadow context to become active at the next frame start. -/
  | ispCommit (n : Fin 4)
  /-- R334: A write of DMC_CTRL.init starts DRAM initialisation on all channels. -/
  | dramInit (fill : Bool)
  /-- R334: Initialisation ends with ready set and capacity mapped, or with init_err. -/
  | dramInitComplete (r : DramInit)
  /-- R345: DMC_CTRL.flush writes back every dirty check block. -/
  | dramFlush (fill : Bool)
  /-- R345: The check-block flush completes and busy clears. -/
  | dramFlushComplete
  /-- R346: A request from the system cache enters its channel's read or write queue. -/
  | dramRequest (line : BitVec 29) (cls : Fin 8) (write : Bool) (noalloc : Bool) (part : Bool) (close : Bool) (scrub : Bool)
  /-- R347: A channel chooses and issues one eligible request or due refresh. -/
  | dramAccessIssue (ch : Fin 16)
  /-- R340: A line read completes, corrected or flagged uncorrectable, and is returned. -/
  | dramReadComplete (ch : Fin 16) (errors : BitVec 11) (link : Bool) (raw : List (BitVec 8))
  /-- R351: A per-bank refresh comes due in the refresh interval. -/
  | dramRefresh (ch : Fin 16) (bank : Fin 32)
  /-- R352: A bank's rolling activation count reaches the threshold and a refresh-management command is issued. -/
  | refreshManagement (ch : Fin 16) (bank : Fin 32)
  /-- R354: A channel's quiet window starts and performs oscillator, MR4 or ZQ maintenance. -/
  | quietWindow (ch : Fin 16) (osc0 : OscResult) (osc1 : OscResult) (mr4 : BitVec 16) (hot : Bool)
  /-- R356: A rank idle for DMC_PD.timer × 8 ns enters power-down. -/
  | powerDownEntry (ch : Fin 16) (rank : Fin 2)
  /-- R349: An open row idle for DMC_PAGE.idle ns is closed. -/
  | openRowIdleClose (ch : Fin 16) (bank : Fin 32)
  /-- R358: A request outstanding 100 µs at a channel declares the channel faulty. -/
  | dramRequestTimeout (ch : Fin 16)
  /-- R361: A corrected SRAM word is read again at the next free cycle and a hard fault is logged if it still needs correction. -/
  | hardFaultRecheck (still : Bool) (column : Bool) (index : BitVec 16) (factory : Fin 3)
  /-- R371: An SRAM patrol reads one word in a free cycle and corrects it. -/
  | sramPatrol (kind : SramKind) (unit : BitVec 7) (mac : BitVec 16) (addr : BitVec 40) (r : SramResult)
  /-- R368: SCRB_CTRL.go starts a software scrub pass over a range. -/
  | scrubGo
  /-- R368: SCRB_CTRL.abort ends the software pass at the next line boundary. -/
  | scrubAbort
  /-- R370: A software scrub pass ends and its summary is written. -/
  | scrubPassEnd (lines : List (BitVec 40 × Bool))
  /-- R391: Every 2 µs the estimator computes package power, updates the averages and sets the loose limit. -/
  | estimatorPeriod (c : PowerCounts)
  /-- R394: Every 64 µs the power controller steps one die down or up. -/
  | vfEvaluation
  /-- R395: A rail's voltage write completes and, after PWR_SETTLE, a clock raise takes effect. -/
  | voltageTransactionComplete (d : Fin 2)
  /-- R388: A write to PWR_PROFILE sets the active profile unless it is invalid or below a loaded image. -/
  | profileWrite (v : Word) (master : BitVec 8)
  /-- R397: A phase hint's lead elapses and the core's hint level changes the die's guard. -/
  | hintTakesEffect
  /-- R398: A cluster supply falls below the threshold and its clock period is stretched to 110 %. -/
  | droopDetected (g : Fin 8)
  /-- R398: The supply stays above the threshold for 256 cycles and the period is restored. -/
  | droopRecovered (g : Fin 8) (cycles : Word)
  /-- R399: A deep droop lasting 100 µs declares the compute rail faulty. -/
  | deepDroopExpiry (g : Fin 8)
  /-- R408: Every 1 ms STATUS_WORD of each compute rail is polled and faults or missing answers are judged. -/
  | pmbusPoll (r0 : Option (BitVec 16)) (r1 : Option (BitVec 16))
  /-- R408: PMB_MBX_CTRL.go starts a segment 1 PMBus transaction or refuses it. -/
  | pmbMailboxTransaction (v : Word)
  /-- R408: A mailbox PMBus transaction ends and mbx_done is set. -/
  | pmbMailboxDone (ack : Bool) (pecErr : Bool) (data : List (BitVec 8))
  /-- R400: Every 16 µs a thermal sensor converts; throttle and gradient alarm are judged. -/
  | sensorConversion (n : Fin 30) (t : BitVec 16) (ok : Bool)
  /-- R404: A thermal emergency lasting 100 ms enters hedge mode with cause 2. -/
  | thermalEmergencyExpiry
  /-- R406: Each second the tachometer pulses are latched and fan stall is judged. -/
  | fanTachCount (pulses : BitVec 16)
  /-- R407: A queued power-gated unit starts its wake once spacing and inrush allow. -/
  | wakeStart (u : Fin 97)
  /-- R407: A unit's wake finishes. -/
  | wakeComplete (u : Fin 97)
  /-- R504: A monitored supply falls below its threshold and reset source 1 asserts. -/
  | powerOnReset
  /-- R421: SYS_RESET_N held low for 10 µs is recognised as reset source 2. -/
  | sysResetNLow
  /-- R405: A 115 °C comparator trips and asserts reset source 3. -/
  | thermalTrip
  /-- R423: Every comparator releases below 110 °C and the reset stretch starts. -/
  | thermalTripRelease
  /-- R411: RST_SWDT expires and raises reset source 4. -/
  | stewardWatchdogExpiry
  /-- R411: RST_AWDT expires while enabled and raises reset source 5. -/
  | appWatchdogExpiry
  /-- R411: A write of 0x4B49 to a watchdog kick register resets its count. -/
  | watchdogKick (app : Bool) (v : Word)
  /-- R411: The TAP's reset instruction or TRST_N low raises reset source 7. -/
  | jtagReset
  /-- R512: A hot reset, link-down reset or PCIE_PERST_N low for 1 µs raises reset source 8. -/
  | pcieHotReset (perst : Bool)
  /-- R411: RST_SRCREQ.dict raises reset source 6. -/
  | dictResetRequest
  /-- R411: RST_SRCREQ.secfail raises reset source 9. -/
  | secfailRequest
  /-- R416: RST_CTRL.go from the steward starts an L0, L1 or L2 reset. -/
  | softwareReset (v : Word) (master : BitVec 8)
  /-- R417: A write to RST_BLKn starts L3 resets of named blocks, clusters or dies. -/
  | l3BlockReset (n : Fin 4) (v : Word) (master : BitVec 8)
  /-- R419: RST_CORE.go resets one physical core at L3 when PARKED, HALTED or SPARE. -/
  | coreReset (v : Word) (master : BitVec 8)
  /-- R414: A write to RST_REGIME.service moves between START and SERVICE. -/
  | regimeWrite (v : Word) (master : BitVec 8)
  /-- R420: The 1 ms stretch ends with its source released and the reset proceeds to release. -/
  | resetStretchEnd (golden : Bool)
  /-- R418: An L3 reset's hold of at least 1 ms ends and the target is released. -/
  | l3ResetEnd (t : Fin 200)
  /-- R426: The reference has no edge for 2 µs or deviates by 20 % and source 1 asserts. -/
  | referenceClockLoss
  /-- R429: A PLL loses lock, losing a cluster or die or asserting source 1. -/
  | pllLockLoss (p : Pll)
  /-- R430: The part leaves reset through the release steps and starts the boot ROM. -/
  | resetRelease (st : Straps) (m : BootMedia)
  /-- R435: A boot source's time limit expires and the source fails. -/
  | bootSourceTimeout (m : BootMedia)
  /-- R434: Every boot source failed; after 5 s the boot ROM writes RST_SRCREQ.secfail. -/
  | bootRetryWait
  /-- R436: A host write to SEC_PUSHDB announces a pushed manifest or block. -/
  | pushDoorbell (v : Word) (master : BitVec 8)
  /-- R442: SEC_EXTCTRL.go extends a measurement register with SEC_EXTDATA. -/
  | measurementExtend (v : Word) (master : BitVec 8)
  /-- R443: A write to SEC_KDF_CTRL derives a key or is refused. -/
  | keyDerive (v : Word) (master : BitVec 8)
  /-- R446: SEC_ATT_CTRL.go starts a signed attestation report. -/
  | attest (v : Word) (master : BitVec 8)
  /-- R446: The attestation report is written and done is set. -/
  | attestDone
  /-- R449: SEC_HANDOVER.request makes the security block verify and restart the steward in the new half. -/
  | handoverRequest
  /-- R449: The security block restarts the steward at the new entry and extends SEC_MEAS7. -/
  | handoverRestart
  /-- R449: SEC_HANDOVER.confirm ends the handover. -/
  | handoverConfirm
  /-- R450: Confirm is not set 10 s after restart and the steward reverts to the old half. -/
  | handoverTimeout
  /-- R448: FUSE_PROG_CTRL.go starts programming one fuse bit in all three copies. -/
  | fuseProgram (v : Word) (master : BitVec 8) (vpp : Bool)
  /-- R448: A fuse bit finishes programming after 20 µs. -/
  | fuseProgramDone
  /-- R454: A DTLS handshake on the dictionary port opens a session or is refused. -/
  | dtlsHandshake (h : Handshake)
  /-- R460: A READ message returns an object's value or its first segment. -/
  | odRead (k : Fin 9) (msg : List (BitVec 8))
  /-- R460: A READ_SEG message returns the next segment of a segmented read. -/
  | odReadSeg (k : Fin 9) (msg : List (BitVec 8))
  /-- R461: A WRITE message sets an object or starts a segmented write. -/
  | odWrite (k : Fin 9) (msg : List (BitVec 8))
  /-- R461: A WRITE_SEG message carries a segment and completes the value on the last. -/
  | odWriteSeg (k : Fin 9) (msg : List (BitVec 8))
  /-- R462: An ABORT message from a client ends a segmented transfer. -/
  | odAbort (k : Fin 9) (msg : List (BitVec 8))
  /-- R463: A SUBSCRIBE message starts, replaces or ends a session's event subscription. -/
  | odSubscribe (k : Fin 9) (msg : List (BitVec 8))
  /-- R463: An EVENT_ACK message acknowledges events received in order. -/
  | odEventAck (k : Fin 9) (msg : List (BitVec 8))
  /-- R456: A PING message is echoed. -/
  | odPing (k : Fin 9) (msg : List (BitVec 8))
  /-- R463: An unacknowledged EVENT is sent again after 1 s, ending the subscription after 30 repeats. -/
  | odEventRetransmit (k : Fin 9)
  /-- R462: A segmented transfer idle for 10 s is discarded. -/
  | odTransferTimeout (k : Fin 9) (req : BitVec 16)
  /-- R456: A network session idle for 60 s ends. -/
  | sessionTimeout (k : Fin 8)
  /-- R468: A write of the store signature to 0x1F00:01 snapshots every RWS value for writing to NVM. -/
  | store
  /-- R468: Both copies of a stored record are written and event 0x0603 is logged. -/
  | storeWritten (err : Bool)
  /-- R469: A write of the restore signature to 0x1F00:02 writes an empty record. -/
  | restoreDefaults
  /-- R474: A write to 0x1F02:00 requests an L1 or L2 reset after 100 ms. -/
  | odReset (l : BitVec 8)
  /-- R474: 100 ms after the reset request the steward writes RST_SRCREQ.dict. -/
  | odResetDelayExpiry
  /-- R449: Object 0x6001 value 1 starts a live steward handover from the pending slot. -/
  | updateHandover
  /-- R451: Object 0x6001 value 2 activates the pending slot's threader. -/
  | threaderActivate
  /-- R439: Object 0x6001 value 3 clears the pending boot slot. -/
  | clearPending
  /-- R479: NVM_WCTRL.go writes words from the write buffer into NVM. -/
  | nvmWrite (v : Word) (master : BitVec 8)
  /-- R479: An NVM write completes and busy clears. -/
  | nvmWriteDone (err : Bool)
  /-- R498: A write of 1 to STW_CLAIM claims the free steward mailbox. -/
  | mailboxClaim (master : BitVec 8)
  /-- R498: A write of 0 to STW_CLAIM by the holder releases the mailbox and ends the session. -/
  | mailboxRelease (master : BitVec 8)
  /-- R499: STW_REQ_GO hands the request message to the steward. -/
  | mailboxRequestGo (master : BitVec 8)
  /-- R499: STW_RSP_ACK frees the response buffer for the next message. -/
  | mailboxResponseAck (master : BitVec 8)
  /-- R493: A write to RING_RP releases consumed ring entries or is rejected. -/
  | ringRpWrite (r : BitVec 8) (v : Word)
  /-- R483: A steward write to HCX_RELEASE starts application cores at HCX_RVEC. -/
  | appCoreRelease (v : Word) (master : BitVec 8)
  /-- R490: A write to PCIE_H2A_SET sets host-to-core doorbell bits. -/
  | h2aSet (v : Word)
  /-- R490: A write to PCIE_A2H_SET sets core-to-host doorbell bits. -/
  | a2hSet (v : Word)
  /-- R485: A write to PCIE_EOI resends an asserted, unmasked MSI-X vector's message. -/
  | pcieEoi (v : Word)
  /-- R485: Unmasking an asserted vector with its PBA bit set sends its message. -/
  | msixUnmask (n : Fin 32)
  /-- R489: A host read through a BAR completes with data, EP or Completer Abort. -/
  | pcieHostRead (bar2 : Bool) (off : BitVec 34) (n : BitVec 13)
  /-- R489: A host write through a BAR is posted in order, or discarded. -/
  | pcieHostWrite (bar2 : Bool) (off : BitVec 34) (data : List (BitVec 8)) (poisoned : Bool)
  /-- R514: A write to GPIO_DIR sets directions, the first releasing the fused pin states. -/
  | gpioDirWrite (v : Word)
  /-- R514: A write to GPIO_SET sets output bits. -/
  | gpioSet (v : Word)
  /-- R514: A write to GPIO_CLR clears output bits. -/
  | gpioClr (v : Word)
  /-- R516: A GPIO input changes level and its interrupt status is set by type and polarity. -/
  | gpioInputEdge (n : Fin 32) (level : Bool)
  /-- R480: A frame received on MNET is filtered and queued to the steward or dropped. -/
  | mnetFrameReceive (time : BitVec 64) (frame : List (BitVec 8))
  /-- R480: MNET_MDIO_CTRL.go starts a clause 22 MDIO frame. -/
  | mdioCommand (v : Word)
  /-- R480: An MDIO frame ends and done is set. -/
  | mdioFrameDone (data : BitVec 16)
  /-- R420: SYS_RESET_N, held low by an external agent beyond the 1 ms stretch, is released and the reset proceeds to its release. -/
  | sysResetNRelease (golden : Bool)
  /-- R512: PCIE_PERST_N rises, releasing the held-down PCIe link so that link training may start no earlier than 100 ms later. -/
  | pciePerstNRelease (link : Option PcieLink)
  /-- R381: A cluster's clock domain has not answered for 10 µs and the cluster is marked lost in the fault set. -/
  | clockDomainNoAnswer (g : Fin 8)
  /-- R311: A frame from a software transmit queue finishes sending; the port advances its head and, when ts_req is set, writes the transmit time and ts_done. -/
  | swTxFrameSent (port : Fin 3) (time : BitVec 64)
  deriving DecidableEq, Repr

end Sys2Proof
end

