-- ==== Sys2Proof/Decode.lean ====
section
/-! DEFINITION. The command table gives no row any bits: no word spells a command. -/

namespace Sys2Proof

/-- The command that a word of the table spells: the table of the HV960 gives no bits to any row, so no word spells one. -/
def decodeTableWord (_nbits _w : Nat) : Option Instr := none

end Sys2Proof
end

