-- ==== Sys2Proof/Config.lean ====
section
/-! DEFINITION. What the specification leaves to the unit or leaves open: free values without a body, and the
identities of the bus masters. -/

namespace Sys2Proof.Config

/-- FREE VALUE. What the specification calls undefined, or does not state, is this constant applied to the state's
counter of free values. It has no body: nothing can be proved of the bits (assumption 2). -/
opaque freeBits : Nat → BitVec 64

/-- FREE VALUE. The device secret in fuses (17 R443): no bus master can read it; it differs from unit to unit. -/
opaque deviceSecret : List Nat

/-- FREE VALUE. SHA-384 of the boot ROM (17 R442), whose contents the specification does not give. -/
opaque bootRomDigest : List Nat

/-- FREE VALUE. The bytes of the boot ROM (17), which the specification does not give. -/
opaque bootRom : Nat → BitVec 8

/-- Bus master numbers (14_resilience_and_failover.md, bus master identities; R18). -/
def masterPcie : Nat := 0x60
def masterSteward : Nat := 0x61
def masterScrubber : Nat := 0x62
def masterJtag : Nat := 0x63

end Sys2Proof.Config
end

