-- ==== Sys2Proof/Machine/Tbl.lean ====
section
/-! DEFINITION. Sparse tables: sorted lists of key and value pairs that list no entry equal to what an unlisted key
reads as. Memory, the register store and every numbered set of the device are held in this one canonical form. -/

namespace Sys2Proof.Machine

/-- A sparse table from numbers to values. -/
abbrev Tbl (α : Type) := List (Nat × α)

/-- The entry of a key, if it is listed. -/
def Tbl.find {α : Type} (k : Nat) : Tbl α → Option α
  | [] => none
  | (j, v) :: r => if j = k then some v else Tbl.find k r

/-- The value at a key; an unlisted key reads as d k. -/
def Tbl.get {α : Type} (d : Nat → α) (t : Tbl α) (k : Nat) : α := (Tbl.find k t).getD (d k)

/-- The table without a key. -/
def Tbl.erase {α : Type} (k : Nat) : Tbl α → Tbl α
  | [] => []
  | (j, v) :: r => if j = k then Tbl.erase k r else (j, v) :: Tbl.erase k r

/-- The table with a key listed at a value, in order of the keys. -/
def Tbl.insert {α : Type} (k : Nat) (v : α) : Tbl α → Tbl α
  | [] => [(k, v)]
  | (j, w) :: r => if k < j then (k, v) :: (j, w) :: r else if j = k then (k, v) :: r else (j, w) :: Tbl.insert k v r

/-- The table after a write: a value equal to the default removes the entry. -/
def Tbl.set {α : Type} [DecidableEq α] (d : Nat → α) (t : Tbl α) (k : Nat) (v : α) : Tbl α :=
  if v = d k then Tbl.erase k t else Tbl.insert k v t

/-- The table with every key of a range back at its default. -/
def Tbl.clear {α : Type} (lo hi : Nat) : Tbl α → Tbl α
  | [] => []
  | (j, v) :: r => if lo ≤ j ∧ j < hi then Tbl.clear lo hi r else (j, v) :: Tbl.clear lo hi r

/-- The canonical form: keys strictly rising, all of them above the bound, and no entry at its default. -/
def Tbl.wfFrom {α : Type} [DecidableEq α] (d : Nat → α) (b : Option Nat) : Tbl α → Bool
  | [] => true
  | (j, v) :: r => (match b with | none => true | some m => decide (m < j)) && decide (v ≠ d j) && Tbl.wfFrom d (some j) r

/-- The canonical form of a whole table. -/
def Tbl.wf {α : Type} [DecidableEq α] (d : Nat → α) (t : Tbl α) : Bool := Tbl.wfFrom d none t

end Sys2Proof.Machine
end

