-- ==== Sys2Proof/Machine/Types.lean ====
section
/-! DEFINITION. The data that the state holds: cores and their contexts, stream slots, jobs, and the weave image as the
load leaves it (02_the_weave.md, 03, 06, 08, 09, 10). Plain data throughout. -/

namespace Sys2Proof.Machine

/-! ### Tags, elements and descriptors -/

/-- Cause of a poison tag, in increasing precedence (R174). -/
inductive Poison where
  | clean
  | missing
  | stale
  | uncorrectable
  deriving DecidableEq, Repr

/-- The tag of a tile: poison cause, numerics bits (R130) and the carry regions behind it (R56): none of them, all of them
carried, or one of them computed. -/
structure Tag where
  cause : Poison
  sat : Bool
  flush : Bool
  carried : Option Bool
  deriving DecidableEq, Repr

/-- The tag of a tile that nothing has tagged. -/
def Tag.clean : Tag := ⟨.clean, false, false, none⟩

/-- One element delivered by a LOAD or GATHER: its bits, its gather valid bit and the tag of the block it came from. -/
structure Elem where
  bits : Nat
  valid : Bool
  tag : Tag
  deriving DecidableEq, Repr

/-- A stream descriptor (Table, Stream descriptor). -/
structure Desc where
  base : Nat
  kind : Nat
  fmtMem : Nat
  fmtEng : Nat
  stride : List Int
  cnt : List Nat
  wrap : List Nat
  pad : Nat
  aux : Nat
  flags : Nat
  strideXY : Nat
  dilXY : Nat
  padLo : Nat
  piece : Nat
  lead : Nat
  rsvd : Nat
  deriving DecidableEq, Repr

/-- A stream slot of a core (R167 to R171): the transfer it holds, the resolved descriptor, the origins and offset, the
elements still to be taken (LOAD, GATHER) and the number of elements stored so far (STORE). bad is the cause when the
entry failed its check (R176). -/
structure Slot where
  active : Bool
  kind : Nat
  index : Nat
  desc : Option Desc
  bad : Option Poison
  org : List Nat
  aoff : Nat
  elems : List Elem
  pos : Nat
  carried : Bool
  deriving DecidableEq, Repr

/-- The stationary weight tile of one matrix engine (R82, R93): pair, stored weight format, tile bytes and tag. -/
structure WTile where
  pair : Nat
  fmt : Nat
  bytes : List Nat
  tag : Tag
  deriving DecidableEq, Repr

/-! ### Contexts and cores -/

/-- The register context of a sequencer (Table, Architectural registers; pseudocode of R226). p holds P0 to P63 of a loose
context; a woven context reads the parameter sets of its role (R220, R221). -/
structure Context where
  pc : Nat
  s : Tbl Word
  a : Tbl DevAddr
  p : Tbl Word
  lc : Tbl Word
  lstart : Tbl Nat
  lend : Tbl Nat
  lframe : Tbl Nat
  depth : Nat
  stack : Tbl Nat
  sp : Nat
  deriving DecidableEq, Repr

/-- A context as R276 and a reset leave it: index 0, every register 0, no loop, no call. -/
def Context.init : Context :=
  { pc := 0, s := [], a := [], p := [], lc := [], lstart := [], lend := [], lframe := [], depth := 0, stack := [], sp := 0 }

/-- An entry of a record queue (R262): its 32 bytes, whether EMIT.DET placed it (R213), the tag of the list it came from,
whether the entry reads as uncorrectable (R359), the logical core and role epoch under which it was placed and whether the
role then ran on the spare slot. -/
structure QEntry where
  bytes : List Nat
  det : Bool
  tag : Tag
  uncorr : Bool
  core : Nat
  epoch : Nat
  spare : Bool
  deriving DecidableEq, Repr

/-- A physical core: what its registers of the register store do not hold. -/
structure Core where
  woven : Context
  /-- the pick section that is open and the operand of the last WAITPICK of the tick (R224, R225) -/
  lastWait : Nat
  /-- the operand the sequencer waits for at WAITPICK (R224) -/
  waitN : Nat
  /-- picks of the tick that the core has acknowledged (R49) -/
  acked : Nat
  /-- first pick of the tick of a core without a role (R232) -/
  ownTick : Option Nat
  /-- the command that waits for its input data, and the pick in which it was placed (R48, R51) -/
  held : Option Instr
  heldPick : Nat
  /-- the barrier the core waits at (R227) -/
  syncAt : Option Nat
  slots : Tbl Slot
  tags : Tbl Tag
  weights : Tbl (Option WTile)
  /-- tile rows that hold the results of masked vectors (R129), by (16 × engine + tile) × 32 + row -/
  maskedRows : Tbl Bool
  /-- cached descriptor table entries of the tick (R177): 64 bytes, and the cause when the fetch failed -/
  dcache : Tbl (Option (List Nat × Option Poison))
  /-- invalidations that have arrived and take effect at the next pick boundary (R179): none is all -/
  inval : List (Option Nat)
  /-- cached role-table entries of the tick: logical core to slot and epoch (R181) -/
  rcache : Tbl (Option (Nat × Nat))
  /-- open carry region, the decision of each region in the tick: 1 computed, 2 carried, 3 gated without a previous
  output (R57); and the regions whose map read was incomplete (R248) -/
  region : Option Nat
  decided : Tbl Nat
  regionPoison : List Nat
  /-- occupied landing buffer slots, by 16 × buffer + slot (R180) -/
  landed : Tbl Bool
  /-- the pick of the last stale drop for a landing slot (R183) -/
  staleAt : Tbl (Option Nat)
  queues : Tbl (List QEntry)
  /-- the stat_mode in force (R116) -/
  statMode : Nat
  /-- elements and commands counted in each statistics slot, and its partial mark (R126 to R132) -/
  statElems : Tbl Word
  statCmds : Tbl Word
  statPartial : Tbl Bool
  /-- remainder below 1,024 of CORE_MEACTn (R102) -/
  meactRem : Tbl Nat
  /-- BOXDEC (R203, R207): position ranges that the run's histogram covers, whether its emission has begun, the next
  position it expects, whether the ranges broke R203, list entries written, kept candidates of bin cut − 1 -/
  boxCover : List (Nat × Nat)
  boxOpen : Bool
  boxNext : Nat
  boxBad : Bool
  boxPos : Nat
  boxTie : Nat
  /-- NMS keep marks, by scratchpad offset of the input list (R210) -/
  keep : Tbl (List Bool)
  deriving DecidableEq, Repr

/-- A core as a reset or SPARE initialisation leaves it. -/
def Core.init : Core :=
  { woven := Context.init, lastWait := 0, waitN := 0, acked := 0, ownTick := none, held := none, heldPick := 0,
    syncAt := none, slots := [], tags := [], weights := [], maskedRows := [], dcache := [], inval := [], rcache := [], region := none,
    decided := [], regionPoison := [], landed := [], staleAt := [], queues := [], statMode := 0, statElems := [], statCmds := [],
    statPartial := [], meactRem := [], boxCover := [], boxOpen := true, boxNext := 0, boxBad := false,
    boxPos := 0, boxTie := 0, keep := [] }

/-! ### Pushes in flight -/

/-- A push or message in flight (R180, R181): sender, carried logical core and epoch, the physical core it is routed to,
landing buffer and slot, its bytes, and the tags of the blocks it read, by 512-byte block of the payload. -/
structure Push where
  sender : Nat
  target : Nat
  epoch : Nat
  dest : Option Nat
  buffer : Nat
  slot : Nat
  bytes : List Nat
  tags : List Tag
  deriving DecidableEq, Repr

/-! ### Loose jobs -/

/-- Where a dispatched loose job stands (R278, R285 to R288). -/
inductive JobPhase where
  | running
  | draining
  | saving
  | restoring
  | saved
  deriving DecidableEq, Repr

/-- A dispatched loose job that has not ended (R272, R278). -/
structure Job where
  num : Nat
  descAddr : Nat
  image : Nat
  core : Nat
  irq : Bool
  ctx : Context
  ctxSlot : Nat
  phase : JobPhase
  ftz : Bool
  mode : Nat
  tiles : Nat
  slots : Nat
  spOff : Nat
  spSize : Nat
  count : Nat
  since : Nat
  saveOrder : Nat
  cancelled : Bool
  held : Option Instr
  heldPick : Nat
  /-- transfers of a saved job's stream slots (context block bytes 1,024 to 2,047, R287) -/
  savedSlots : Tbl Slot
  savedTags : Tbl Tag
  deriving DecidableEq, Repr

/-! ### The weave image (02) -/

/-- Landing buffer entry. -/
structure LandBuf where
  number : Nat
  slots : Nat
  offset : Nat
  slotBytes : Nat
  deriving DecidableEq, Repr

/-- Carry range entry. -/
structure CarryRange where
  offset : Nat
  size : Nat
  deriving DecidableEq, Repr

/-- Carry region entry. -/
structure CarryRegion where
  region : Nat
  stream : Nat
  bx0 : Nat
  by0 : Nat
  bx1 : Nat
  by1 : Nat
  firstOut : Nat
  outN : Nat
  deriving DecidableEq, Repr

/-- Output range entry. -/
structure OutRange where
  carry : Nat
  size : Nat
  dest : Nat
  deriving DecidableEq, Repr

/-- Re-entry table entry (R60). -/
structure Reentry where
  pick : Nat
  index : Nat
  loops : List Nat
  retire : Nat
  mode : Nat
  deriving DecidableEq, Repr

/-- A core section: a role of a variant. -/
structure CoreSec where
  core : Nat
  weft : List Nat
  params : List Nat
  land : List LandBuf
  carry : List CarryRange
  regions : List CarryRegion
  outs : List OutRange
  reentry : List Reentry
  wsEnd : Nat
  deriving DecidableEq, Repr

/-- Retirement table entry (R59). -/
structure RetSlot where
  pick : Nat
  ring : Nat
  kind : Nat
  core : Nat
  queue : Nat
  stream : Nat
  output : Nat
  first : Bool
  back : Nat
  deriving DecidableEq, Repr

/-- Decode timetable entry. -/
structure DecSlot where
  pick : Nat
  decoder : Nat
  flags : Nat
  stream : Nat
  outputs : Nat
  pool : Nat
  deadline : Nat
  deriving DecidableEq, Repr

/-- ISP timetable entry (R323). -/
structure IspSlot where
  pick : Nat
  kind : Nat
  port : Nat
  flags : Nat
  rate : Nat
  outputs : Nat
  pool : Nat
  deadline : Nat
  deriving DecidableEq, Repr

/-- Stream binding entry. -/
structure Binding where
  stream : Nat
  ring : Nat
  hAllow : Nat
  pool : Nat
  mapOff : Nat
  statOff : Nat
  deriving DecidableEq, Repr

/-- Output set entry. -/
structure OutSet where
  id : Nat
  index : List Nat
  deriving DecidableEq, Repr

/-- Ring configuration of a variant (R491). -/
structure RingConf where
  ring : Nat
  base : Nat
  log2 : Nat
  heartbeat : Nat
  deriving DecidableEq, Repr

/-- Host-writable region entry. -/
structure HostRegion where
  core : Nat
  space : Nat
  engine : Nat
  offset : Nat
  size : Nat
  deriving DecidableEq, Repr

/-- Pool entry. -/
structure PoolConf where
  id : Nat
  hold : Nat
  kind : Nat
  count : Nat
  base : Nat
  size : Nat
  deriving DecidableEq, Repr

/-- A variant of a weave image with the sections that belong to it (R519). -/
structure Variant where
  id : Nat
  reduced : Nat
  lost : Nat
  dies : Nat
  cores : List CoreSec
  dec : List DecSlot
  isp : List IspSlot
  ret : List RetSlot
  binds : List Binding
  sets : List OutSet
  rings : List RingConf
  host : List HostRegion
  deriving DecidableEq, Repr

/-- A loaded weave image. -/
structure Image where
  addr : Nat
  flags : Nat
  tick : Nat
  profile : Nat
  slackMin : Nat
  margin : Nat
  carryLimit : Nat
  lead : Nat
  weaveId : Nat
  build : Nat
  variants : List Variant
  descs : List (Nat × List Nat)
  pools : List PoolConf
  deriving DecidableEq, Repr

/-! ### The running weave (02, 14) -/

/-- A stream frame as the retirement unit sees it (R71, R520): number, capture time, record flags REPEAT and LATE, the
hole that stands for it, the next item number, and whether a count-0 HOLE closed it (R73). -/
structure FrameSt where
  frame : Nat
  capture : Nat
  flags : Nat
  hole : Option Nat
  item : Nat
  closed : Bool
  deriving DecidableEq, Repr

/-- An opening of a stream (R520): the frame it chose, and the frames it consumed without choosing them, each with its
capture time and hole reason (R301, R304, R323). -/
structure Opening where
  chosen : Option FrameSt
  passed : List (Nat × Nat × Nat)
  deriving DecidableEq, Repr

/-- What a ring has received in the tick (R74, R75): records, holes, FILLER items, and whether a record reached it since
the previous heartbeat slot. -/
structure RingTick where
  records : Nat
  holes : Nat
  fillers : Nat
  busy : Bool
  deriving DecidableEq, Repr

/-- An interval in which a role's slots are served as core-fault holes (R378): epoch and spare flag of the failed
mapping. -/
structure HoleServe where
  epoch : Nat
  spare : Bool
  deriving DecidableEq, Repr

/-- A hole that a stop, a changeover, a variant switch or hedge entry still retires: ring, stamp, capture time and reason
(R62, R68, R69, R298, R384). -/
structure DueHole where
  ring : Nat
  stream : Nat
  frame : Nat
  item : Nat
  capture : Nat
  reason : Nat
  deriving DecidableEq, Repr

/-- An owed range of a stream (R494): the ring that owes it, the first missing stamp and the last owed frame. -/
structure Owed where
  ring : Nat
  frame : Nat
  item : Nat
  last : Nat
  deriving DecidableEq, Repr

/-- A failover in progress in a cluster (R373): role, failed slot, halt reason code, start time, whether the load waits for
SPARE initialisation or has completed, and the pick from which the role may resume. -/
structure Failover where
  role : Nat
  slot : Nat
  reason : Nat
  start : Nat
  loaded : Option Nat
  shadow : Bool
  deriving DecidableEq, Repr

/-- A SYNC barrier of a cluster (R227). -/
structure Barrier where
  mask : Nat
  arrived : Nat
  expired : Bool
  pick : Nat
  deriving DecidableEq, Repr

/-- The weave controller: what the WV_ registers do not hold. -/
structure WeaveSt where
  active : Option Image
  standby : Option Image
  /-- the image being loaded is a standby image -/
  loadStandby : Bool
  startPick : Nat
  /-- first pick of the current tick (R45) -/
  tickPick : Nat
  tickLen : Nat
  /-- WV_FAULTSET for which the running variant was selected (R61) -/
  selected : Nat
  /-- slots of the tick that have been retired, in retirement order (R59) -/
  slot : Nat
  /-- slots of this tick, and of the next from the number of slots on, that a hole has absorbed (R522) -/
  absorbed : List Nat
  due : List DueHole
  /-- a stop has taken effect and its holes and FRAME_ENDs are still to be written (R68) -/
  stopping : Bool
  /-- the image and variant id that ran before the changeover tick that is running (R69) -/
  before : Option (Image × Nat)
  /-- pick at which the hedge weave starts, and the cluster that runs it (R383) -/
  hedgeAt : Option Nat
  /-- WV_IMG as sampled when the load in progress was accepted, and the cluster of the hedge weave -/
  loadAddr : Nat
  hedgeCluster : Nat
  /-- streams that ingest and the ports stamp (R298, R317) -/
  bound : List Nat
  /-- rings that still receive FRAME_END of the extra tick -/
  dueEnd : List Nat
  openings : Tbl (List Opening)
  /-- next frame number and open frame of each internal stream (R520) -/
  nextFrame : Tbl Nat
  internal : Tbl (Option FrameSt)
  ringTick : Tbl RingTick
  /-- last retired stamp of each stream: frame and next item, none where the frame is closed (R384) -/
  lastStamp : Tbl (Option (Nat × Option Nat))
  /-- owed ranges by stream, owed FRAME_END records by ring, in tick order (R494) -/
  owed : Tbl (Option Owed)
  feOwed : Tbl (List (List Nat))
  /-- rings that the running image does not configure and that still owe entries (R521) -/
  drains : List Nat
  /-- records written to ring 255 since its interrupt bit was cleared (R497) -/
  hedgeCount : Nat
  serving : Tbl (Option HoleServe)
  /-- roles without a core: no spare, or an aborted failover (R380, R381) -/
  noCore : List Nat
  /-- valid mark and carry count of each carry region, by 4,096 × role + region (R53 to R57) -/
  carryValid : Tbl Bool
  carryCount : Tbl Nat
  /-- regions opened since the last complete shadow (R376) -/
  openedSince : List Nat
  /-- completion mark of the shadow of each role: the tick number of the copy (R162) -/
  shadowMark : Tbl (Option Nat)
  shadowBusy : List Nat
  /-- barriers, by 8 × cluster + barrier (R227) -/
  barriers : Tbl (Option Barrier)
  failovers : Tbl (Option Failover)
  /-- hint requests: logical core, level, pick at which they take effect (R397) -/
  hints : List (Nat × Nat × Nat)
  hintLevel : Tbl Nat
  /-- marks of WV_FAULTSET that stay until the next reset (R26, R381): retired slots, lost clusters and dies -/
  hardFaults : Nat
  deriving DecidableEq, Repr

/-- The weave controller after reset. -/
def WeaveSt.init : WeaveSt :=
  { active := none, standby := none, loadStandby := false, startPick := 0, tickPick := 0, tickLen := 0, selected := 0,
    slot := 0, absorbed := [], due := [], stopping := false, before := none, hedgeAt := none, loadAddr := 0, hedgeCluster := 0, bound := [], dueEnd := [], openings := [], nextFrame := [], internal := [], ringTick := [], lastStamp := [],
    owed := [], feOwed := [], drains := [], hedgeCount := 0, serving := [], noCore := [], carryValid := [], carryCount := [], openedSince := [], shadowMark := [], shadowBusy := [],
    barriers := [], failovers := [], hints := [], hintLevel := [], hardFaults := 0 }

/-! ### Jobs (10) -/

/-- The job dispatcher: what the WV_JQ registers do not hold. -/
structure JobsSt where
  jobs : List Job
  /-- TAIL as sampled at the last pick boundary, by client (R271) -/
  tail : Tbl Nat
  /-- cancelled entries not yet dispatched, client and entry; all entries up to TAIL (R290) -/
  cancel : List (Nat × Nat)
  robin : Nat
  bucket : Nat
  /-- LALLOW and LTILES in force, by logical core (R290) -/
  allow : Tbl Word
  tiles : Tbl Word
  saveSeq : Nat
  deriving DecidableEq, Repr

/-- The dispatcher after reset. -/
def JobsSt.init : JobsSt :=
  { jobs := [], tail := [], cancel := [], robin := 0, bucket := 0, allow := [], tiles := [], saveSeq := 0 }

end Sys2Proof.Machine
end

