-- ==== Sys2Proof/Machine/IoTypes.lean ====
section
/-! DEFINITION. The data of the units around the cores: ingest and decoding (11), pixel ports and ISP (12). Plain data. -/

namespace Sys2Proof.Machine

/-! ### Ingest (11) -/

/-- The fields of a frame handle below its stamp, capture time, tick and outcome (Table, Frame handle): what a repeated frame
takes from the previous output. -/
structure FrameOut where
  capture : Nat
  w : Nat
  h : Nat
  pool : Nat
  index : Nat
  luma : Nat
  chroma : Nat
  map : Nat
  outs : List Nat
  stride : Nat
  stat : Nat
  deriving DecidableEq, Repr

/-- A stamped frame that no slot has consumed: an access unit (R297, R298) or a pixel-port frame (R317). outcome is the hole
reason of a pixel-port frame that closed badly, 0 otherwise; flags are those of the access-unit index, or bit 2 alone for an
in-line frame whose change map is all set; buffer is the pool and index of a pixel-port frame; out is the output of an in-line
frame; after says that it was stamped in a changeover tick (R69). -/
structure Stamped where
  frame : Nat
  capture : Nat
  outcome : Nat
  flags : Nat
  lost : Nat
  rtp : Nat
  offset : Nat
  length : Nat
  buffer : Option (Nat × Nat)
  out : Option FrameOut
  after : Bool
  deriving DecidableEq, Repr

/-- An RTP packet kept in an access unit under reassembly: extended position, marker and payload. -/
structure RtpPkt where
  pos : Nat
  marker : Bool
  payload : List Nat
  deriving DecidableEq, Repr

/-- The access unit under reassembly (R296, R297): RTP timestamp, receive time and port of its first packet, its packets in order
of position. -/
structure OpenAu where
  ts : Nat
  since : Nat
  port : Nat
  pkts : List RtpPkt
  deriving DecidableEq, Repr

/-- What ingest keeps of a stream (R295, R297, R300): highest position seen (sequence numbers unwrapped from 65,536 on), the
positions received among the last 32, the open access unit, the timestamps of closed ones, the next free byte of the data area,
and the data that is kept in the ring: frame, length, and whether nothing needs it any longer. -/
structure Recv where
  top : Option Nat
  got : List Nat
  au : Option OpenAu
  closed : List Nat
  write : Nat
  kept : List (Nat × Nat × Bool)
  deriving DecidableEq, Repr

/-- A stream that nothing has reached. -/
def Recv.init : Recv := { top := none, got := [], au := none, closed := [], write := 0, kept := [] }

/-- Ingest: what the NET_ registers do not hold. -/
structure IngestSt where
  recv : Tbl Recv
  /-- stamped, unconsumed frames by stream, in frame order (R298, R300, R317, R318) -/
  pend : Tbl (List Stamped)
  /-- an anchor has been committed for the stream (R299) -/
  anchored : Tbl Bool
  deriving DecidableEq, Repr

/-- Ingest after reset. -/
def IngestSt.init : IngestSt := { recv := [], pend := [], anchored := [] }

/-! ### Decode cores (11) -/

/-- A frame buffer in use (R307): pool, index, its stream, whether it holds the previous output or a reference, whether a
stamped frame or a pass holds it, and the tick boundaries since its slot. -/
structure PoolBuf where
  pool : Nat
  index : Nat
  stream : Nat
  prev : Bool
  ref : Bool
  held : Bool
  ticks : Nat
  deriving DecidableEq, Repr

/-- A decode slot that is decoding (R301 to R303): stream, chosen access unit, the frames it consumed, drawn buffer, output set
id and flags of the timetable entry, physical decode core, last pick of the deadline. -/
structure DecRun where
  stream : Nat
  au : Stamped
  used : List Nat
  pool : Nat
  index : Nat
  outputs : Nat
  flags : Nat
  core : Nat
  last : Nat
  deriving DecidableEq, Repr

/-- Decode cores: what the VDEC_ registers do not hold. -/
structure VdecSt where
  /-- invalidations that have arrived (R179) -/
  inval : List (Option Nat)
  /-- cached DECOUT entries of the tick, by 4,096 × decode core + index, the ISP as core 17 (R178) -/
  dcache : Tbl (Option (List Nat))
  /-- running decodes by logical decode core, and the timetable entries that have opened in the tick -/
  runs : Tbl (Option DecRun)
  opened : List Nat
  /-- consecutive slots cut off by their deadline, by physical decode core (R308) -/
  cuts : Tbl Nat
  /-- time from which the spare serves its logical core, and the streams it has taken over (R308) -/
  spareFrom : Nat
  took : List Nat
  /-- by stream: refs_lost, previous output, a picture decoded since START or a changeover, unsupported (R301 to R309) -/
  refsLost : Tbl Bool
  prevOut : Tbl (Option FrameOut)
  seen : Tbl Bool
  unsupported : Tbl Bool
  /-- the handle written last, by stream (R306, R329) -/
  handles : Tbl (List Nat)
  /-- buffers in use, of decode cores, pixel ports and the ISP (R307) -/
  bufs : List PoolBuf
  deriving DecidableEq, Repr

/-- Decode cores after reset. -/
def VdecSt.init : VdecSt :=
  { inval := [], dcache := [], runs := [], opened := [], cuts := [], spareFrom := 0, took := [], refsLost := [], prevOut := [], seen := [],
    unsupported := [], handles := [], bufs := [] }

/-! ### Pixel ports and ISP (12) -/

/-- An open pixel-port frame (R314 to R319): time of its VSYNC edge, capture time, drawn buffer, lines of the signal since the
edge, active lines received, width of the last of them, the pixels kept for in-line processing, whether the last active pixel has
arrived, and whether a word of the line memory read as uncorrectable (R359). -/
structure PixFrame where
  since : Nat
  capture : Nat
  buffer : Option (Nat × Nat)
  edges : Nat
  lines : Nat
  wide : Nat
  pixels : List (List Nat)
  done : Bool
  bad : Bool
  deriving DecidableEq, Repr

/-- A pixel port: its open frame, the time of the last active VSYNC edge, whether the last frame closed good and no edge has
followed, and whether a frame has been processed since START, a changeover or an enable (R328). -/
structure PixSt where
  frame : Option PixFrame
  edge : Nat
  good : Bool
  seen : Bool
  deriving DecidableEq, Repr

/-- A pixel port after reset. -/
def PixSt.init : PixSt := { frame := none, edge := 0, good := false, seen := false }

/-- A memory pass that is running (R323, R324): port, frame, output pool and buffer index, output set id and flags of the timetable
entry, last pick of the deadline. -/
structure IspRun where
  port : Nat
  frame : Stamped
  pool : Nat
  index : Nat
  outputs : Nat
  flags : Nat
  last : Nat
  deriving DecidableEq, Repr

/-- Pixel ports and ISP: what the PIX_ and ISP_ registers do not hold. -/
structure IspSt where
  ports : Tbl PixSt
  /-- active copies of the context registers and tables, by the address of the shadow (R332) -/
  active : Tbl Word
  pass : Option IspRun
  /-- timetable entries that have opened in the tick -/
  opened : List Nat
  deriving DecidableEq, Repr

/-- Pixel ports and ISP after reset. -/
def IspSt.init : IspSt := { ports := [], active := [], pass := none, opened := [] }

end Sys2Proof.Machine
end

