-- ==== Sys2Proof/Machine/MemTypes.lean ====
section
/-! DEFINITION. The data of the system cache, the DRAM channels, the scrubber and the repair log (06, 13, 14). Plain data. -/

namespace Sys2Proof.Machine

/-! ### System cache (R163, R165) -/

/-- A line that a way of the system cache holds: its line number and whether it is dirty. -/
structure ScLine where
  line : Nat
  dirty : Bool
  deriving DecidableEq, Repr

/-- A set of the system cache: held lines by way, and the 15 bits of the replacement tree, node 1 the root. -/
structure ScSet where
  ways : Tbl (Option ScLine)
  tree : Nat
  deriving DecidableEq, Repr

/-- A set that holds nothing. -/
def ScSet.init : ScSet := { ways := [], tree := 0 }

/-! ### DRAM channels (R346 to R358) -/

/-- A request in a channel's queue or in flight: line number, rank and bank as 16 × rank + bank, row, check block as
16 × check row + block, direction, requester class, page hint, partial write, scrubber read, age, arrival time, and whether a
throttle has held it. -/
structure ChanReq where
  line : Nat
  bank : Nat
  row : Nat
  check : Nat
  write : Bool
  cls : Nat
  close : Bool
  part : Bool
  scrub : Bool
  age : Nat
  since : Nat
  held : Bool
  deriving DecidableEq, Repr

/-- A DRAM channel. Tables by bank use 16 × rank + bank, tables by class and bank 8 × that + class. -/
structure ChanSt where
  reads : List ChanReq
  writes : List ChanReq
  /-- reads issued and not yet complete, oldest first -/
  flight : List ChanReq
  draining : Bool
  /-- open row of each bank and the time of its last access -/
  rows : Tbl (Option (Nat × Nat))
  /-- refreshes due and not issued, by bank (R351) -/
  due : Tbl Nat
  /-- rolling activation count, by bank (R352) -/
  raa : Tbl Nat
  /-- activations in the sliding window, by class and bank: 8 µs sub-window of the timebase and count, latest first (R353) -/
  acts : Tbl (List (Nat × Nat))
  /-- tokens of a throttled class at a bank, and the time up to which they have been counted (R353) -/
  tokens : Tbl (Option (Nat × Nat))
  /-- check cache: bank, check block and dirty mark, most recently used first (Check cache) -/
  check : List (Nat × Nat × Bool)
  /-- pick of the last quiet window, windows so far, and failed oscillator measurements in a row by rank (R354, R355) -/
  lastQuiet : Option Nat
  windows : Nat
  oscFail : Tbl Nat
  /-- time of the last request of each rank (R356) -/
  lastReq : Tbl Nat
  /-- times of uncorrectable reads, latest first (R358) -/
  ues : List Nat
  deriving DecidableEq, Repr

/-- A channel after reset. -/
def ChanSt.init : ChanSt :=
  { reads := [], writes := [], flight := [], draining := false, rows := [], due := [], raa := [], acts := [], tokens := [], check := [],
    lastQuiet := none, windows := 0, oscFail := [], lastReq := [], ues := [] }

/-- The software scrub pass: start, next line to request, end, failures so far, start time, abort requested, a line on a faulty
channel. -/
structure ScrubSt where
  start : Nat
  next : Nat
  stop : Nat
  ce : Nat
  ue : Nat
  first : Option Nat
  last : Nat
  since : Nat
  abort : Bool
  chan : Bool
  deriving DecidableEq, Repr

/-- A field repair log entry (R364). -/
structure RepairEntry where
  kind : Nat
  unit : Nat
  mac : Nat
  index : Nat
  time : Nat
  deriving DecidableEq, Repr

/-- DRAM, system cache, scrubber and repair: what the registers do not hold. -/
structure DramSt where
  chans : Tbl ChanSt
  cache : Tbl ScSet
  /-- DRAM lines that nothing has written since power-on read as uncorrectable (R335) -/
  raw : Bool
  /-- threshold of refresh management that mode register 27 reports (R352) -/
  rfm : Nat
  /-- the last initialisation filled memory, and the masks of the DRAM layout record, if a valid one exists (R339) -/
  layout : Option (List Nat)
  scrub : Option ScrubSt
  /-- corrected words that are to be read again: memory, unit and macro (R361) -/
  recheck : List (SramKind × Nat × Nat)
  /-- repair log in NVM, and the copy that the last L0 reset read (R362, R364) -/
  repairs : List RepairEntry
  applied : List RepairEntry
  /-- halts of class hardware that led to a failover: physical core and time (R365) -/
  hwHalts : List (Nat × Nat)
  deriving DecidableEq, Repr

/-- DRAM, system cache, scrubber and repair after a first power-on. -/
def DramSt.init : DramSt :=
  { chans := [], cache := [], raw := true, rfm := 0, layout := none, scrub := none, recheck := [], repairs := [], applied := [], hwHalts := [] }

end Sys2Proof.Machine
end

