-- ==== Sys2Proof/Machine/RegMap.lean ====
section
/-! DEFINITION. The register map of the HV960: the address of every register of every block, its reset value and the bits
each access code of R13 covers, from the register summaries and field tables of the chapters. A row covers cnt registers
at a stride; a field table gives a register several codes at once. -/

namespace Sys2Proof.Reg

/-- Base of I/O die block b (R28, R33). -/
abbrev blk (b : Nat) : Nat := 0x1200000000 + b * 0x100000

/-- Base of the physical window of core p (R28). -/
abbrev coreWin (p : Nat) : Nat := 0x1000000000 + p * 0x2000000

/-- Base of the core registers of core p. -/
abbrev coreReg (p : Nat) : Nat := coreWin p + 0x1000000

/-- Base of the register window of cluster g (R28). -/
abbrev cluReg (g : Nat) : Nat := 0x10C0000000 + g * 0x100000

/-! WV_ registers, block 0x40 (02, 10) -/

abbrev WV_CTRL : Nat := blk 0x40 + 0x0
abbrev WV_STATUS : Nat := blk 0x40 + 0x4
abbrev WV_IMG_LO : Nat := blk 0x40 + 0x8
abbrev WV_IMG_HI : Nat := blk 0x40 + 0xC
abbrev WV_START_LO : Nat := blk 0x40 + 0x10
abbrev WV_START_HI : Nat := blk 0x40 + 0x14
abbrev WV_TICK_BASE : Nat := blk 0x40 + 0x18
abbrev WV_TICK : Nat := blk 0x40 + 0x1C
abbrev WV_PICK_LO : Nat := blk 0x40 + 0x20
abbrev WV_PICK_HI : Nat := blk 0x40 + 0x24
abbrev WV_PICK_IN_TICK : Nat := blk 0x40 + 0x28
abbrev WV_VARIANT : Nat := blk 0x40 + 0x2C
abbrev WV_LOAD_ERR : Nat := blk 0x40 + 0x30
abbrev WV_FAULTSET : Nat := blk 0x40 + 0x34
abbrev WV_OVRUN : Nat := blk 0x40 + 0x38
abbrev WV_INWAIT : Nat := blk 0x40 + 0x3C
abbrev WV_RECORDS_LO : Nat := blk 0x40 + 0x40
abbrev WV_RECORDS_HI : Nat := blk 0x40 + 0x44
abbrev WV_HOLES_LO : Nat := blk 0x40 + 0x48
abbrev WV_HOLES_HI : Nat := blk 0x40 + 0x4C
abbrev WV_EMPTY_LO : Nat := blk 0x40 + 0x50
abbrev WV_EMPTY_HI : Nat := blk 0x40 + 0x54
abbrev WV_LAGMAX : Nat := blk 0x40 + 0x58
abbrev WV_LAG (i : Nat) : Nat := blk 0x40 + 0x60 + i * 4
abbrev WV_IRQ_STATUS : Nat := blk 0x40 + 0x70
abbrev WV_IRQ_EN : Nat := blk 0x40 + 0x74
abbrev WV_JOBCTRL : Nat := blk 0x40 + 0x100
abbrev WV_LOOSEBW : Nat := blk 0x40 + 0x104
abbrev WV_JOBSTAT : Nat := blk 0x40 + 0x108
abbrev WV_LPT_CTRL : Nat := blk 0x40 + 0x10C
abbrev WV_LPT_SRC_LO : Nat := blk 0x40 + 0x110
abbrev WV_LPT_SRC_HI : Nat := blk 0x40 + 0x114
abbrev WV_LPT_DST_LO : Nat := blk 0x40 + 0x118
abbrev WV_LPT_DST_HI : Nat := blk 0x40 + 0x11C
abbrev WV_LPT_LEN : Nat := blk 0x40 + 0x120
abbrev WV_LPT_STAT : Nat := blk 0x40 + 0x124
abbrev WV_LPT_INDEX : Nat := blk 0x40 + 0x128
abbrev WV_JOBIRQ : Nat := blk 0x40 + 0x130
abbrev WV_JOBIRQ_EN : Nat := blk 0x40 + 0x134

/-! CORE_ registers of a core window (03 to 10) -/

abbrev CORE_GANG (p : Nat) : Nat := coreReg p + 0x200
abbrev CORE_MESTAT (p : Nat) (i : Nat) : Nat := coreReg p + 0x210 + i * 4
abbrev CORE_MEPOS (p : Nat) (i : Nat) : Nat := coreReg p + 0x220 + i * 4
abbrev CORE_MEPASS (p : Nat) (i : Nat) : Nat := coreReg p + 0x230 + i * 4
abbrev CORE_MEBUSY (p : Nat) (i : Nat) : Nat := coreReg p + 0x240 + i * 4
abbrev CORE_MEGATED (p : Nat) (i : Nat) : Nat := coreReg p + 0x250 + i * 4
abbrev CORE_MEACT (p : Nat) (i : Nat) : Nat := coreReg p + 0x260 + i * 4
abbrev CORE_NUMCFG (p : Nat) : Nat := coreReg p + 0x280
abbrev CORE_NUMSTAT (p : Nat) : Nat := coreReg p + 0x284
abbrev CORE_SATCNT (p : Nat) : Nat := coreReg p + 0x288
abbrev CORE_FLUSHCNT (p : Nat) : Nat := coreReg p + 0x28C
abbrev CORE_STAT (p : Nat) (i : Nat) : Nat := coreReg p + 0x400 + i * 4
abbrev CORE_MAXABS_STAT (p : Nat) : Nat := coreReg p + 0x290
abbrev CORE_MAXABS_T (p : Nat) : Nat := coreReg p + 0x294
abbrev CORE_MAXABS_CLR (p : Nat) : Nat := coreReg p + 0x298
abbrev CORE_MAXABS_C (p : Nat) (i : Nat) : Nat := coreReg p + 0x800 + i * 4
abbrev CORE_SESTAT (p : Nat) : Nat := coreReg p + 0x300
abbrev CORE_SEINV (p : Nat) : Nat := coreReg p + 0x304
abbrev CORE_SEFETCH (p : Nat) : Nat := coreReg p + 0x308
abbrev CORE_SESTALE (p : Nat) : Nat := coreReg p + 0x30C
abbrev CORE_SEERRCAP (p : Nat) : Nat := coreReg p + 0x310
abbrev CORE_SEOUT (p : Nat) : Nat := coreReg p + 0x314
abbrev CORE_SEPOISON (p : Nat) : Nat := coreReg p + 0x318
abbrev CORE_SESTRM (p : Nat) (i : Nat) : Nat := coreReg p + 0x340 + i * 4
abbrev CORE_OPSTAT (p : Nat) : Nat := coreReg p + 0x2A0
abbrev CORE_CANDOVF (p : Nat) : Nat := coreReg p + 0x2A4
abbrev CORE_SURVOVF (p : Nat) : Nat := coreReg p + 0x2A8
abbrev CORE_CROPOVF (p : Nat) : Nat := coreReg p + 0x2AC
abbrev CORE_NMSRUNS (p : Nat) : Nat := coreReg p + 0x2B0
abbrev CORE_ID (p : Nat) : Nat := coreReg p + 0x0
abbrev CORE_STATUS (p : Nat) : Nat := coreReg p + 0x4
abbrev CORE_CTRL (p : Nat) : Nat := coreReg p + 0x8
abbrev CORE_ROLE (p : Nat) : Nat := coreReg p + 0xC
abbrev CORE_HALT_PC (p : Nat) : Nat := coreReg p + 0x10
abbrev CORE_HALT_REASON (p : Nat) : Nat := coreReg p + 0x14
abbrev CORE_HALT_PICK_LO (p : Nat) : Nat := coreReg p + 0x18
abbrev CORE_HALT_PICK_HI (p : Nat) : Nat := coreReg p + 0x1C
abbrev CORE_HALT_ADDR_LO (p : Nat) : Nat := coreReg p + 0x20
abbrev CORE_HALT_ADDR_HI (p : Nat) : Nat := coreReg p + 0x24
abbrev CORE_PC (p : Nat) : Nat := coreReg p + 0x28
abbrev CORE_PICKACK (p : Nat) : Nat := coreReg p + 0x2C
abbrev CORE_CTXSTAT (p : Nat) : Nat := coreReg p + 0x30
abbrev CORE_PSWAPS (p : Nat) : Nat := coreReg p + 0x34
abbrev CORE_PROGREJ (p : Nat) : Nat := coreReg p + 0x38
abbrev CORE_L (p : Nat) (i : Nat) : Nat := coreReg p + 0x40 + i * 4
abbrev CORE_STK (p : Nat) (i : Nat) : Nat := coreReg p + 0x50 + i * 4
abbrev CORE_PSH (p : Nat) (i : Nat) : Nat := coreReg p + 0xA00 + i * 4
abbrev CORE_PACT (p : Nat) (i : Nat) : Nat := coreReg p + 0xB00 + i * 4
abbrev CORE_S (p : Nat) (i : Nat) : Nat := coreReg p + 0xC00 + i * 4
abbrev CORE_A_LO (p : Nat) (i : Nat) : Nat := coreReg p + 0xC80 + i * 8
abbrev CORE_A_HI (p : Nat) (i : Nat) : Nat := coreReg p + 0xC84 + i * 8
abbrev CORE_LALLOW (p : Nat) : Nat := coreReg p + 0x80
abbrev CORE_LTILES (p : Nat) : Nat := coreReg p + 0x84
abbrev CORE_LSLOTS (p : Nat) : Nat := coreReg p + 0x88
abbrev CORE_LCTX0 (p : Nat) : Nat := coreReg p + 0x8C
abbrev CORE_LCTX1 (p : Nat) : Nat := coreReg p + 0x90
abbrev CORE_LLIMIT (p : Nat) : Nat := coreReg p + 0x94

/-! CLU_ registers of a cluster window (06, 08, 15) -/

abbrev CLU_CCCFG (g : Nat) : Nat := cluReg g + 0x100
abbrev CLU_CCINV (g : Nat) : Nat := cluReg g + 0x104
abbrev CLU_STALE (g : Nat) : Nat := cluReg g + 0x108
abbrev CLU_STALECAP (g : Nat) : Nat := cluReg g + 0x10C
abbrev CLU_LBDROP (g : Nat) : Nat := cluReg g + 0x110
abbrev CLU_CCHIT (g : Nat) : Nat := cluReg g + 0x114
abbrev CLU_CCMISS (g : Nat) : Nat := cluReg g + 0x118
abbrev CLU_STATUS (g : Nat) : Nat := cluReg g + 0x0
abbrev CLU_PHOLD (g : Nat) : Nat := cluReg g + 0x4
abbrev CLU_SLOTSTATE (g : Nat) : Nat := cluReg g + 0x8
abbrev CLU_SYNCTO (g : Nat) : Nat := cluReg g + 0xC
abbrev CLU_ROLE (g : Nat) (i : Nat) : Nat := cluReg g + 0x10 + i * 4
abbrev CLU_ROLECHG (g : Nat) : Nat := cluReg g + 0x30
abbrev CLU_THRREP (g : Nat) (i : Nat) : Nat := cluReg g + 0x40 + i * 4
abbrev CLU_DROOPCFG (g : Nat) : Nat := cluReg g + 0x200
abbrev CLU_DROOPEV (g : Nat) : Nat := cluReg g + 0x204
abbrev CLU_DROOPCYC (g : Nat) : Nat := cluReg g + 0x208
abbrev CLU_THERMST (g : Nat) : Nat := cluReg g + 0x20C

/-! SYS_ registers, block 0x00 (00, 06, 17) -/

abbrev SYS_PARTID : Nat := blk 0x00 + 0x0
abbrev SYS_SDT_BASE_LO : Nat := blk 0x00 + 0x100
abbrev SYS_SDT_BASE_HI : Nat := blk 0x00 + 0x104
abbrev SYS_SDT_INV : Nat := blk 0x00 + 0x108
abbrev SYS_SDT_INVSTAT : Nat := blk 0x00 + 0x10C
abbrev SYS_SC_WINDOW : Nat := blk 0x00 + 0x110
abbrev SYS_MEMSTAT : Nat := blk 0x00 + 0x114
abbrev SYS_OUTST : Nat := blk 0x00 + 0x118
abbrev SYS_SC_WAYMASK (i : Nat) : Nat := blk 0x00 + 0x120 + i * 4
abbrev SYS_LOCK : Nat := blk 0x00 + 0x1FC
abbrev SYS_FWVER : Nat := blk 0x00 + 0x10
abbrev SYS_THRVER : Nat := blk 0x00 + 0x14
abbrev SYS_APPVER : Nat := blk 0x00 + 0x18
abbrev SYS_HOSTVER : Nat := blk 0x00 + 0x1C

/-! registers of one job client (10) -/

abbrev WV_JQ_BASE_LO (n : Nat) : Nat := blk 0x40 + 0x400 + n * 0x40 + 0x0
abbrev WV_JQ_BASE_HI (n : Nat) : Nat := blk 0x40 + 0x400 + n * 0x40 + 0x4
abbrev WV_JQ_CFG (n : Nat) : Nat := blk 0x40 + 0x400 + n * 0x40 + 0x8
abbrev WV_JQ_CORES_LO (n : Nat) : Nat := blk 0x40 + 0x400 + n * 0x40 + 0xC
abbrev WV_JQ_CORES_HI (n : Nat) : Nat := blk 0x40 + 0x400 + n * 0x40 + 0x10
abbrev WV_JQ_SAVE_LO (n : Nat) : Nat := blk 0x40 + 0x400 + n * 0x40 + 0x14
abbrev WV_JQ_SAVE_HI (n : Nat) : Nat := blk 0x40 + 0x400 + n * 0x40 + 0x18
abbrev WV_JQ_TAIL (n : Nat) : Nat := blk 0x40 + 0x400 + n * 0x40 + 0x1C
abbrev WV_JQ_HEAD (n : Nat) : Nat := blk 0x40 + 0x400 + n * 0x40 + 0x20
abbrev WV_JQ_SUBMIT (n : Nat) : Nat := blk 0x40 + 0x400 + n * 0x40 + 0x24
abbrev WV_JQ_DONE (n : Nat) : Nat := blk 0x40 + 0x400 + n * 0x40 + 0x28
abbrev WV_JQ_PREEMPT (n : Nat) : Nat := blk 0x40 + 0x400 + n * 0x40 + 0x2C
abbrev WV_JQ_CANCEL (n : Nat) : Nat := blk 0x40 + 0x400 + n * 0x40 + 0x30
abbrev WV_JQ_STAT (n : Nat) : Nat := blk 0x40 + 0x400 + n * 0x40 + 0x34

/-! NET_ registers, blocks 0x30 and 0x31 (11) -/

abbrev NET_CTRL (port : Nat) : Nat := blk (0x30 + port) + 0x0
abbrev NET_STATUS (port : Nat) : Nat := blk (0x30 + port) + 0x4
abbrev NET_MAC_LO (port : Nat) : Nat := blk (0x30 + port) + 0x8
abbrev NET_MAC_HI (port : Nat) : Nat := blk (0x30 + port) + 0xC
abbrev NET_MCHASH_LO (port : Nat) : Nat := blk (0x30 + port) + 0x10
abbrev NET_MCHASH_HI (port : Nat) : Nat := blk (0x30 + port) + 0x14
abbrev NET_STAT (port : Nat) : Nat := blk (0x30 + port) + 0x18
abbrev NET_SWRX_BASE_LO (port : Nat) : Nat := blk (0x30 + port) + 0x20
abbrev NET_SWRX_BASE_HI (port : Nat) : Nat := blk (0x30 + port) + 0x24
abbrev NET_SWTX_BASE_LO (port : Nat) : Nat := blk (0x30 + port) + 0x28
abbrev NET_SWTX_BASE_HI (port : Nat) : Nat := blk (0x30 + port) + 0x2C
abbrev NET_SWQ_CFG (port : Nat) : Nat := blk (0x30 + port) + 0x30
abbrev NET_SWRX_HEAD (port : Nat) : Nat := blk (0x30 + port) + 0x34
abbrev NET_SWRX_TAIL (port : Nat) : Nat := blk (0x30 + port) + 0x38
abbrev NET_SWTX_HEAD (port : Nat) : Nat := blk (0x30 + port) + 0x3C
abbrev NET_SWTX_TAIL (port : Nat) : Nat := blk (0x30 + port) + 0x40
abbrev NET_RXBAD (port : Nat) : Nat := blk (0x30 + port) + 0x80
abbrev NET_TOSW (port : Nat) : Nat := blk (0x30 + port) + 0x84
abbrev NET_DROPIP (port : Nat) : Nat := blk (0x30 + port) + 0x88
abbrev NET_DROPCSUM (port : Nat) : Nat := blk (0x30 + port) + 0x8C
abbrev NET_DROPRTP (port : Nat) : Nat := blk (0x30 + port) + 0x90
abbrev NET_SSRCERR (port : Nat) : Nat := blk (0x30 + port) + 0x94
abbrev NET_RXRTP (port : Nat) : Nat := blk (0x30 + port) + 0x98
abbrev NET_SWDROP (port : Nat) : Nat := blk (0x30 + port) + 0x9C
abbrev NET_UNBOUND (port : Nat) : Nat := blk (0x30 + port) + 0xA0
abbrev NET_LATEPKT (port : Nat) : Nat := blk (0x30 + port) + 0xA4
abbrev NET_DUPPKT (port : Nat) : Nat := blk (0x30 + port) + 0xA8
abbrev NET_ANC_STREAM (port : Nat) : Nat := blk (0x30 + port) + 0x200
abbrev NET_ANC_NS_LO (port : Nat) : Nat := blk (0x30 + port) + 0x204
abbrev NET_ANC_NS_HI (port : Nat) : Nat := blk (0x30 + port) + 0x208
abbrev NET_ANC_RTP (port : Nat) : Nat := blk (0x30 + port) + 0x20C
abbrev NET_ANC_CMT (port : Nat) : Nat := blk (0x30 + port) + 0x210
abbrev NET_TABLE (port : Nat) (i : Nat) : Nat := blk (0x30 + port) + 0x10000 + i * 4
abbrev NET_SSTAT (n w : Nat) : Nat := blk 0x30 + 0x18000 + 16 * n + w * 4

/-! VDEC_ registers, block 0x20 (11) -/

abbrev VDEC_SPARE : Nat := blk 0x20 + 0x0
abbrev VDEC_FAULT : Nat := blk 0x20 + 0x4
abbrev VDEC_HTAB_LO : Nat := blk 0x20 + 0x8
abbrev VDEC_HTAB_HI : Nat := blk 0x20 + 0xC
abbrev VDEC_IRQ_STATUS : Nat := blk 0x20 + 0x10
abbrev VDEC_IRQ_EN : Nat := blk 0x20 + 0x14
abbrev VDEC_LOCK : Nat := blk 0x20 + 0x18
abbrev VDEC_REFRESH (i : Nat) : Nat := blk 0x20 + 0x20 + i * 4
abbrev VDEC_DECODED : Nat := blk 0x20 + 0x60
abbrev VDEC_REPEATED : Nat := blk 0x20 + 0x64
abbrev VDEC_ERRORS : Nat := blk 0x20 + 0x68
abbrev VDEC_OVRUN : Nat := blk 0x20 + 0x6C
abbrev VDEC_POOLEMPTY : Nat := blk 0x20 + 0x70

/-! VENC_ and JPG_ registers, blocks 0x21 and 0x22 (11) -/

abbrev VENC_QBASE_LO (e : Nat) : Nat := blk (0x21 + e) + 0x0
abbrev VENC_QBASE_HI (e : Nat) : Nat := blk (0x21 + e) + 0x4
abbrev VENC_QCFG (e : Nat) : Nat := blk (0x21 + e) + 0x8
abbrev VENC_QTAIL (e : Nat) : Nat := blk (0x21 + e) + 0xC
abbrev VENC_QHEAD (e : Nat) : Nat := blk (0x21 + e) + 0x10
abbrev VENC_DONE (e : Nat) : Nat := blk (0x21 + e) + 0x14
abbrev VENC_IRQ (e : Nat) : Nat := blk (0x21 + e) + 0x18
abbrev VENC_IRQ_EN (e : Nat) : Nat := blk (0x21 + e) + 0x1C

/-! TBS_ registers, block 0x33 (11) -/

abbrev TBS_TIME_LO : Nat := blk 0x33 + 0x0
abbrev TBS_TIME_HI : Nat := blk 0x33 + 0x4
abbrev TBS_RATE : Nat := blk 0x33 + 0x8
abbrev TBS_STEP_LO : Nat := blk 0x33 + 0xC
abbrev TBS_STEP_HI : Nat := blk 0x33 + 0x10
abbrev TBS_SET_LO : Nat := blk 0x33 + 0x14
abbrev TBS_SET_HI : Nat := blk 0x33 + 0x18
abbrev TBS_STATUS : Nat := blk 0x33 + 0x1C
abbrev TBS_PPS : Nat := blk 0x33 + 0x20

/-! PIX_ registers, blocks 0x28 to 0x2B (12) -/

abbrev PIX_CTRL (n : Nat) : Nat := blk (0x28 + n) + 0x0
abbrev PIX_CFG (n : Nat) : Nat := blk (0x28 + n) + 0x4
abbrev PIX_GEOM (n : Nat) : Nat := blk (0x28 + n) + 0x8
abbrev PIX_WIN (n : Nat) : Nat := blk (0x28 + n) + 0xC
abbrev PIX_TIMEOUT (n : Nat) : Nat := blk (0x28 + n) + 0x10
abbrev PIX_NOSIG (n : Nat) : Nat := blk (0x28 + n) + 0x14
abbrev PIX_CAPOFF (n : Nat) : Nat := blk (0x28 + n) + 0x18
abbrev PIX_STATUS (n : Nat) : Nat := blk (0x28 + n) + 0x1C
abbrev PIX_IRQ_STATUS (n : Nat) : Nat := blk (0x28 + n) + 0x20
abbrev PIX_IRQ_EN (n : Nat) : Nat := blk (0x28 + n) + 0x24
abbrev PIX_LASTGEOM (n : Nat) : Nat := blk (0x28 + n) + 0x28
abbrev PIX_PCLKMEAS (n : Nat) : Nat := blk (0x28 + n) + 0x2C
abbrev PIX_FRAMES (n : Nat) : Nat := blk (0x28 + n) + 0x40
abbrev PIX_MALFORMED (n : Nat) : Nat := blk (0x28 + n) + 0x44
abbrev PIX_TIMEOUTS (n : Nat) : Nat := blk (0x28 + n) + 0x48
abbrev PIX_NOBUF (n : Nat) : Nat := blk (0x28 + n) + 0x4C
abbrev PIX_UNBOUND (n : Nat) : Nat := blk (0x28 + n) + 0x50
abbrev PIX_EXTRA (n : Nat) : Nat := blk (0x28 + n) + 0x54

/-! ISP_ registers, block 0x2C (12) -/

abbrev ISP_CFG : Nat := blk 0x2C + 0x0
abbrev ISP_STATUS : Nat := blk 0x2C + 0x4
abbrev ISP_HTAB_LO : Nat := blk 0x2C + 0x8
abbrev ISP_HTAB_HI : Nat := blk 0x2C + 0xC
abbrev ISP_IRQ_STATUS : Nat := blk 0x2C + 0x10
abbrev ISP_IRQ_EN : Nat := blk 0x2C + 0x14
abbrev ISP_LOCK : Nat := blk 0x2C + 0x18
abbrev ISP_CMREF_LO (i : Nat) : Nat := blk 0x2C + 0x20 + i * 8
abbrev ISP_CMREF_HI (i : Nat) : Nat := blk 0x2C + 0x24 + i * 8
abbrev ISP_MAPOFF (i : Nat) : Nat := blk 0x2C + 0x40 + i * 8
abbrev ISP_STATOFF (i : Nat) : Nat := blk 0x2C + 0x44 + i * 8
abbrev ISP_PASSES : Nat := blk 0x2C + 0x60
abbrev ISP_OVRUN : Nat := blk 0x2C + 0x64
abbrev ISP_INLINE : Nat := blk 0x2C + 0x68
abbrev ISP_LSC0 (i : Nat) : Nat := blk 0x2C + 0x10000 + i * 4
abbrev ISP_LSC1 (i : Nat) : Nat := blk 0x2C + 0x11000 + i * 4
abbrev ISP_LSC2 (i : Nat) : Nat := blk 0x2C + 0x12000 + i * 4
abbrev ISP_LSC3 (i : Nat) : Nat := blk 0x2C + 0x13000 + i * 4
abbrev ISP_GAMMA0 (i : Nat) : Nat := blk 0x2C + 0x14000 + i * 4
abbrev ISP_GAMMA1 (i : Nat) : Nat := blk 0x2C + 0x14400 + i * 4
abbrev ISP_GAMMA2 (i : Nat) : Nat := blk 0x2C + 0x14800 + i * 4
abbrev ISP_GAMMA3 (i : Nat) : Nat := blk 0x2C + 0x14C00 + i * 4

/-! one ISP context (12) -/

abbrev ISP_CTX_CTRL (n : Nat) : Nat := blk 0x2C + 0x400 + n * 0x80 + 0x0
abbrev ISP_CTX_BLK01 (n : Nat) : Nat := blk 0x2C + 0x400 + n * 0x80 + 0x4
abbrev ISP_CTX_BLK23 (n : Nat) : Nat := blk 0x2C + 0x400 + n * 0x80 + 0x8
abbrev ISP_CTX_DPC (n : Nat) : Nat := blk 0x2C + 0x400 + n * 0x80 + 0xC
abbrev ISP_CTX_WB01 (n : Nat) : Nat := blk 0x2C + 0x400 + n * 0x80 + 0x10
abbrev ISP_CTX_WB23 (n : Nat) : Nat := blk 0x2C + 0x400 + n * 0x80 + 0x14
abbrev ISP_CTX_DGAIN (n : Nat) : Nat := blk 0x2C + 0x400 + n * 0x80 + 0x18
abbrev ISP_CTX_CCM0 (n : Nat) : Nat := blk 0x2C + 0x400 + n * 0x80 + 0x1C
abbrev ISP_CTX_CCM1 (n : Nat) : Nat := blk 0x2C + 0x400 + n * 0x80 + 0x20
abbrev ISP_CTX_CCM2 (n : Nat) : Nat := blk 0x2C + 0x400 + n * 0x80 + 0x24
abbrev ISP_CTX_CCM3 (n : Nat) : Nat := blk 0x2C + 0x400 + n * 0x80 + 0x28
abbrev ISP_CTX_CCM4 (n : Nat) : Nat := blk 0x2C + 0x400 + n * 0x80 + 0x2C
abbrev ISP_CTX_CCMOFF01 (n : Nat) : Nat := blk 0x2C + 0x400 + n * 0x80 + 0x30
abbrev ISP_CTX_CCMOFF2 (n : Nat) : Nat := blk 0x2C + 0x400 + n * 0x80 + 0x34
abbrev ISP_CTX_YUV0 (n : Nat) : Nat := blk 0x2C + 0x400 + n * 0x80 + 0x38
abbrev ISP_CTX_YUV1 (n : Nat) : Nat := blk 0x2C + 0x400 + n * 0x80 + 0x3C
abbrev ISP_CTX_YUV2 (n : Nat) : Nat := blk 0x2C + 0x400 + n * 0x80 + 0x40
abbrev ISP_CTX_YUV3 (n : Nat) : Nat := blk 0x2C + 0x400 + n * 0x80 + 0x44
abbrev ISP_CTX_YUV4 (n : Nat) : Nat := blk 0x2C + 0x400 + n * 0x80 + 0x48
abbrev ISP_CTX_YUVOFF (n : Nat) : Nat := blk 0x2C + 0x400 + n * 0x80 + 0x4C
abbrev ISP_CTX_WIN01 (n : Nat) : Nat := blk 0x2C + 0x400 + n * 0x80 + 0x50
abbrev ISP_CTX_WIN23 (n : Nat) : Nat := blk 0x2C + 0x400 + n * 0x80 + 0x54
abbrev ISP_CTX_CLIP (n : Nat) : Nat := blk 0x2C + 0x400 + n * 0x80 + 0x58
abbrev ISP_CTX_CHG (n : Nat) : Nat := blk 0x2C + 0x400 + n * 0x80 + 0x5C
abbrev ISP_CTX_COMMIT (n : Nat) : Nat := blk 0x2C + 0x400 + n * 0x80 + 0x60
abbrev ISP_CTX_GEN (n : Nat) : Nat := blk 0x2C + 0x400 + n * 0x80 + 0x64

/-! DMC_ registers, block 0x08 (13) -/

abbrev DMC_CFG : Nat := blk 0x08 + 0x0
abbrev DMC_STATUS : Nat := blk 0x08 + 0x4
abbrev DMC_CAP : Nat := blk 0x08 + 0x8
abbrev DMC_CTRL : Nat := blk 0x08 + 0xC
abbrev DMC_FAULT : Nat := blk 0x08 + 0x10
abbrev DMC_STAT : Nat := blk 0x08 + 0x14
abbrev DMC_UELIMIT : Nat := blk 0x08 + 0x18
abbrev DMC_CHHASH0 : Nat := blk 0x08 + 0x20
abbrev DMC_CHHASH1 : Nat := blk 0x08 + 0x24
abbrev DMC_CHHASH2 : Nat := blk 0x08 + 0x28
abbrev DMC_CHHASH3 : Nat := blk 0x08 + 0x2C
abbrev DMC_BKHASH0 : Nat := blk 0x08 + 0x30
abbrev DMC_BKHASH1 : Nat := blk 0x08 + 0x34
abbrev DMC_BKHASH2 : Nat := blk 0x08 + 0x38
abbrev DMC_BKHASH3 : Nat := blk 0x08 + 0x3C
abbrev DMC_CHHASH_HI : Nat := blk 0x08 + 0x40
abbrev DMC_BKHASH_HI : Nat := blk 0x08 + 0x44
abbrev DMC_PAGE : Nat := blk 0x08 + 0x48
abbrev DMC_PD : Nat := blk 0x08 + 0x4C
abbrev DMC_RDT_THRESH0 : Nat := blk 0x08 + 0x50
abbrev DMC_RDT_THRESH (i : Nat) : Nat := blk 0x08 + 0x54 + i * 4
abbrev DMC_RDT_RATE : Nat := blk 0x08 + 0x70
abbrev DMC_IRQ_STATUS : Nat := blk 0x08 + 0x80
abbrev DMC_IRQ_EN : Nat := blk 0x08 + 0x84
abbrev DMC_LOCK : Nat := blk 0x08 + 0xF0

/-! DCH_ registers, blocks 0x09 to 0x18 (13) -/

abbrev DCH_STATUS (ch : Nat) : Nat := blk (0x09 + ch) + 0x0
abbrev DCH_CE (ch : Nat) : Nat := blk (0x09 + ch) + 0x4
abbrev DCH_UE (ch : Nat) : Nat := blk (0x09 + ch) + 0x8
abbrev DCH_LINKCE (ch : Nat) : Nat := blk (0x09 + ch) + 0xC
abbrev DCH_CEADDR_LO (ch : Nat) : Nat := blk (0x09 + ch) + 0x10
abbrev DCH_CEADDR_HI (ch : Nat) : Nat := blk (0x09 + ch) + 0x14
abbrev DCH_UEADDR_LO (ch : Nat) : Nat := blk (0x09 + ch) + 0x18
abbrev DCH_UEADDR_HI (ch : Nat) : Nat := blk (0x09 + ch) + 0x1C
abbrev DCH_ACT (ch : Nat) : Nat := blk (0x09 + ch) + 0x20
abbrev DCH_HITS (ch : Nat) : Nat := blk (0x09 + ch) + 0x24
abbrev DCH_REF (ch : Nat) : Nat := blk (0x09 + ch) + 0x28
abbrev DCH_RFM (ch : Nat) : Nat := blk (0x09 + ch) + 0x2C
abbrev DCH_THROTTLE (ch : Nat) : Nat := blk (0x09 + ch) + 0x30
abbrev DCH_AGECAP (ch : Nat) : Nat := blk (0x09 + ch) + 0x34
abbrev DCH_RETRAIN (ch : Nat) : Nat := blk (0x09 + ch) + 0x38
abbrev DCH_QOCC (ch : Nat) : Nat := blk (0x09 + ch) + 0x3C
abbrev DCH_MR4 (ch : Nat) : Nat := blk (0x09 + ch) + 0x40

/-! RAS_ registers, block 0x49 (14) -/

abbrev RAS_STATUS : Nat := blk 0x49 + 0x0
abbrev RAS_IRQ_STATUS : Nat := blk 0x49 + 0x4
abbrev RAS_IRQ_EN : Nat := blk 0x49 + 0x8
abbrev RAS_CE_SRAM : Nat := blk 0x49 + 0x10
abbrev RAS_UE_SRAM : Nat := blk 0x49 + 0x14
abbrev RAS_HARD : Nat := blk 0x49 + 0x18
abbrev RAS_LOCKVIOL : Nat := blk 0x49 + 0x20
abbrev RAS_LOCKCAP_LO : Nat := blk 0x49 + 0x24
abbrev RAS_LOCKCAP_HI : Nat := blk 0x49 + 0x28
abbrev RAS_BUSERR : Nat := blk 0x49 + 0x2C
abbrev RAS_BUSCAP_LO : Nat := blk 0x49 + 0x30
abbrev RAS_BUSCAP_HI : Nat := blk 0x49 + 0x34
abbrev RAS_LOG_SEQ : Nat := blk 0x49 + 0x40
abbrev RAS_LOG_NEXT : Nat := blk 0x49 + 0x44
abbrev RAS_FUSEDIS : Nat := blk 0x49 + 0x48
abbrev RAS_REPAIR : Nat := blk 0x49 + 0x4C
abbrev RAS_HEDGE : Nat := blk 0x49 + 0x50
abbrev RAS_LOG (i : Nat) : Nat := blk 0x49 + 0x1000 + i * 4

/-! SCRB_ registers, block 0x48 (14) -/

abbrev SCRB_CTRL : Nat := blk 0x48 + 0x0
abbrev SCRB_STATUS : Nat := blk 0x48 + 0x4
abbrev SCRB_START_LO : Nat := blk 0x48 + 0x8
abbrev SCRB_START_HI : Nat := blk 0x48 + 0xC
abbrev SCRB_LEN_LO : Nat := blk 0x48 + 0x10
abbrev SCRB_LEN_HI : Nat := blk 0x48 + 0x14
abbrev SCRB_RATE : Nat := blk 0x48 + 0x18
abbrev SCRB_POS_LO : Nat := blk 0x48 + 0x1C
abbrev SCRB_POS_HI : Nat := blk 0x48 + 0x20
abbrev SCRB_SUM_BYTES_LO : Nat := blk 0x48 + 0x40
abbrev SCRB_SUM_BYTES_HI : Nat := blk 0x48 + 0x44
abbrev SCRB_SUM_CE : Nat := blk 0x48 + 0x48
abbrev SCRB_SUM_UE : Nat := blk 0x48 + 0x4C
abbrev SCRB_SUM_FIRST_LO : Nat := blk 0x48 + 0x50
abbrev SCRB_SUM_FIRST_HI : Nat := blk 0x48 + 0x54
abbrev SCRB_SUM_LAST_LO : Nat := blk 0x48 + 0x58
abbrev SCRB_SUM_LAST_HI : Nat := blk 0x48 + 0x5C
abbrev SCRB_SUM_TIME : Nat := blk 0x48 + 0x60
abbrev SCRB_SUM_STAT : Nat := blk 0x48 + 0x64

/-! PWR_ registers, block 0x03 (15) -/

abbrev PWR_PROFILE : Nat := blk 0x03 + 0x0
abbrev PWR_CTRL : Nat := blk 0x03 + 0x4
abbrev PWR_STATUS : Nat := blk 0x03 + 0x8
abbrev PWR_SETTLE : Nat := blk 0x03 + 0xC
abbrev PWR_DIE0 : Nat := blk 0x03 + 0x10
abbrev PWR_DIE1 : Nat := blk 0x03 + 0x14
abbrev PWR_EST : Nat := blk 0x03 + 0x18
abbrev PWR_AVGF : Nat := blk 0x03 + 0x1C
abbrev PWR_AVGS : Nat := blk 0x03 + 0x20
abbrev PWR_ESTD0 : Nat := blk 0x03 + 0x24
abbrev PWR_ESTD1 : Nat := blk 0x03 + 0x28
abbrev PWR_ESTIO : Nat := blk 0x03 + 0x2C
abbrev PWR_LOOSEK : Nat := blk 0x03 + 0x30
abbrev PWR_THERM : Nat := blk 0x03 + 0x34
abbrev PWR_HINTV : Nat := blk 0x03 + 0x38
abbrev PWR_UPMARGIN : Nat := blk 0x03 + 0x3C
abbrev PWR_IRQ_STATUS : Nat := blk 0x03 + 0x40
abbrev PWR_IRQ_EN : Nat := blk 0x03 + 0x44
abbrev PWR_FSTEPS : Nat := blk 0x03 + 0x48
abbrev PWR_OVERFLOOR : Nat := blk 0x03 + 0x4C
abbrev PWR_FAN : Nat := blk 0x03 + 0x50
abbrev PWR_FANCURVE : Nat := blk 0x03 + 0x54
abbrev PWR_TACH : Nat := blk 0x03 + 0x58
abbrev PWR_LOCK : Nat := blk 0x03 + 0xF0
abbrev PWR_TEMP (i : Nat) : Nat := blk 0x03 + 0x100 + i * 4
abbrev PWR_COEF (i : Nat) : Nat := blk 0x03 + 0x200 + i * 4
abbrev PWR_LEAK (i : Nat) : Nat := blk 0x03 + 0x240 + i * 4
abbrev PWR_VF (i : Nat) : Nat := blk 0x03 + 0x300 + i * 4

/-! PMB_ registers, block 0x5B (15) -/

abbrev PMB_CFG : Nat := blk 0x5B + 0x0
abbrev PMB_RAIL0 : Nat := blk 0x5B + 0x4
abbrev PMB_RAIL1 : Nat := blk 0x5B + 0x8
abbrev PMB_VMODE : Nat := blk 0x5B + 0xC
abbrev PMB_RAILSTAT : Nat := blk 0x5B + 0x10
abbrev PMB_STATUS : Nat := blk 0x5B + 0x14
abbrev PMB_MBX_CTRL : Nat := blk 0x5B + 0x20
abbrev PMB_MBX_D0 : Nat := blk 0x5B + 0x24
abbrev PMB_MBX_D1 : Nat := blk 0x5B + 0x28
abbrev PMB_LOCK : Nat := blk 0x5B + 0xF0

/-! RST_ registers, block 0x01 (16) -/

abbrev RST_CAUSE : Nat := blk 0x01 + 0x0
abbrev RST_SRCSEEN : Nat := blk 0x01 + 0x4
abbrev RST_COUNT : Nat := blk 0x01 + 0x8
abbrev RST_REGIME : Nat := blk 0x01 + 0xC
abbrev RST_CTRL : Nat := blk 0x01 + 0x10
abbrev RST_STATUS : Nat := blk 0x01 + 0x14
abbrev RST_IRQ_STATUS : Nat := blk 0x01 + 0x18
abbrev RST_IRQ_EN : Nat := blk 0x01 + 0x1C
abbrev RST_BLK (i : Nat) : Nat := blk 0x01 + 0x20 + i * 4
abbrev RST_CORE : Nat := blk 0x01 + 0x30
abbrev RST_SRCREQ : Nat := blk 0x01 + 0x34
abbrev RST_MAP0 : Nat := blk 0x01 + 0x40
abbrev RST_STRAP : Nat := blk 0x01 + 0x48
abbrev RST_SWDT : Nat := blk 0x01 + 0x50
abbrev RST_SWDT_KICK : Nat := blk 0x01 + 0x54
abbrev RST_AWDT : Nat := blk 0x01 + 0x58
abbrev RST_AWDT_KICK : Nat := blk 0x01 + 0x5C
abbrev RST_LOCK : Nat := blk 0x01 + 0xF0

/-! CLK_ registers, block 0x02 (16) -/

abbrev CLK_MODE : Nat := blk 0x02 + 0x0
abbrev CLK_STATUS : Nat := blk 0x02 + 0x4
abbrev CLK_IRQ_STATUS : Nat := blk 0x02 + 0x8
abbrev CLK_IRQ_EN : Nat := blk 0x02 + 0xC
abbrev CLK_DOMSTAT (i : Nat) : Nat := blk 0x02 + 0x10 + i * 4
abbrev CLK_OBS : Nat := blk 0x02 + 0x20
abbrev CLK_FMEAS : Nat := blk 0x02 + 0x24

/-! SEC_ registers, block 0x06 (17) -/

abbrev SEC_STATUS : Nat := blk 0x06 + 0x0
abbrev SEC_BOOTINFO : Nat := blk 0x06 + 0x4
abbrev SEC_SVN : Nat := blk 0x06 + 0x8
abbrev SEC_EXTCTRL : Nat := blk 0x06 + 0xC
abbrev SEC_KDF_CTRL : Nat := blk 0x06 + 0x10
abbrev SEC_ATT_CTRL : Nat := blk 0x06 + 0x14
abbrev SEC_HANDOVER : Nat := blk 0x06 + 0x18
abbrev SEC_PUSHDB : Nat := blk 0x06 + 0x1C
abbrev SEC_PUSHSTAT : Nat := blk 0x06 + 0x20
abbrev SEC_ATT_ADDR_LO : Nat := blk 0x06 + 0x24
abbrev SEC_ATT_ADDR_HI : Nat := blk 0x06 + 0x28
abbrev SEC_EXTDATA (i : Nat) : Nat := blk 0x06 + 0x40 + i * 4
abbrev SEC_KEY (i : Nat) : Nat := blk 0x06 + 0x80 + i * 4
abbrev SEC_MEAS (i : Nat) : Nat := blk 0x06 + 0x100 + i * 4
abbrev SEC_IDPUB (i : Nat) : Nat := blk 0x06 + 0x300 + i * 4
abbrev SEC_ATT_NONCE (i : Nat) : Nat := blk 0x06 + 0x400 + i * 4

/-! FUSE_ registers, block 0x04 (17) -/

abbrev FUSE_LIFECYCLE : Nat := blk 0x04 + 0x0
abbrev FUSE_BOOTORD0 : Nat := blk 0x04 + 0x4
abbrev FUSE_BOOTORD1 : Nat := blk 0x04 + 0x8
abbrev FUSE_KEYREV : Nat := blk 0x04 + 0xC
abbrev FUSE_PROG_CTRL : Nat := blk 0x04 + 0x10
abbrev FUSE_PROG_STAT : Nat := blk 0x04 + 0x14
abbrev FUSE_LOCK : Nat := blk 0x04 + 0x18
abbrev FUSE_KEYHASH (i : Nat) : Nat := blk 0x04 + 0x100 + i * 4
abbrev FUSE_PINST (i : Nat) : Nat := blk 0x04 + 0x200 + i * 4

/-! NVM_ registers, block 0x05 (18) -/

abbrev NVM_STATUS : Nat := blk 0x05 + 0x0
abbrev NVM_WADDR : Nat := blk 0x05 + 0x4
abbrev NVM_WCTRL : Nat := blk 0x05 + 0x8
abbrev NVM_WRITES : Nat := blk 0x05 + 0x10
abbrev NVM_WBUF (i : Nat) : Nat := blk 0x05 + 0x100 + i * 4

/-! MNET_ registers, block 0x32 (18) -/

abbrev MNET_CTRL : Nat := blk 0x32 + 0x0
abbrev MNET_STATUS : Nat := blk 0x32 + 0x4
abbrev MNET_MAC_LO : Nat := blk 0x32 + 0x8
abbrev MNET_MAC_HI : Nat := blk 0x32 + 0xC
abbrev MNET_MCHASH_LO : Nat := blk 0x32 + 0x10
abbrev MNET_MCHASH_HI : Nat := blk 0x32 + 0x14
abbrev MNET_SWRX_BASE_LO : Nat := blk 0x32 + 0x20
abbrev MNET_SWRX_BASE_HI : Nat := blk 0x32 + 0x24
abbrev MNET_SWTX_BASE_LO : Nat := blk 0x32 + 0x28
abbrev MNET_SWTX_BASE_HI : Nat := blk 0x32 + 0x2C
abbrev MNET_SWQ_CFG : Nat := blk 0x32 + 0x30
abbrev MNET_SWRX_HEAD : Nat := blk 0x32 + 0x34
abbrev MNET_SWRX_TAIL : Nat := blk 0x32 + 0x38
abbrev MNET_SWTX_HEAD : Nat := blk 0x32 + 0x3C
abbrev MNET_SWTX_TAIL : Nat := blk 0x32 + 0x40
abbrev MNET_MDIO_CTRL : Nat := blk 0x32 + 0x60
abbrev MNET_MDIO_DATA : Nat := blk 0x32 + 0x64
abbrev MNET_MDIO_STAT : Nat := blk 0x32 + 0x68
abbrev MNET_RXOK : Nat := blk 0x32 + 0x80
abbrev MNET_RXBAD : Nat := blk 0x32 + 0x84
abbrev MNET_TXOK : Nat := blk 0x32 + 0x88
abbrev MNET_DROP : Nat := blk 0x32 + 0x8C

/-! HCX_ registers, block 0x50 (19) -/

abbrev HCX_RELEASE : Nat := blk 0x50 + 0x0
abbrev HCX_RVEC_LO : Nat := blk 0x50 + 0x4
abbrev HCX_RVEC_HI : Nat := blk 0x50 + 0x8
abbrev HCX_STAT : Nat := blk 0x50 + 0xC
abbrev HCX_PEND_LO : Nat := blk 0x50 + 0x10
abbrev HCX_PEND_HI : Nat := blk 0x50 + 0x14
abbrev HCX_SWINT : Nat := blk 0x50 + 0x18
abbrev HCX_ROUTE (i : Nat) : Nat := blk 0x50 + 0x100 + i * 4
abbrev HCX_CPEND (i : Nat) : Nat := blk 0x50 + 0x200 + i * 4

/-! PCIE_ registers, block 0x38 (19) -/

abbrev PCIE_STATUS : Nat := blk 0x38 + 0x0
abbrev PCIE_CFG : Nat := blk 0x38 + 0x4
abbrev PCIE_STAT : Nat := blk 0x38 + 0x8
abbrev PCIE_CACOUNT : Nat := blk 0x38 + 0xC
abbrev PCIE_WIN_LO (i : Nat) : Nat := blk 0x38 + 0x10 + i * 8
abbrev PCIE_WIN_HI (i : Nat) : Nat := blk 0x38 + 0x14 + i * 8
abbrev PCIE_IWIN_LO : Nat := blk 0x38 + 0x30
abbrev PCIE_IWIN_HI : Nat := blk 0x38 + 0x34
abbrev PCIE_H2A : Nat := blk 0x38 + 0x40
abbrev PCIE_H2A_SET : Nat := blk 0x38 + 0x44
abbrev PCIE_A2H : Nat := blk 0x38 + 0x48
abbrev PCIE_A2H_SET : Nat := blk 0x38 + 0x4C
abbrev PCIE_EOI : Nat := blk 0x38 + 0x50
abbrev PCIE_LOCK : Nat := blk 0x38 + 0xF0
abbrev PCIE_MSIX_ADDR_LO (i : Nat) : Nat := blk 0x38 + 0x8000 + i * 16
abbrev PCIE_MSIX_ADDR_HI (i : Nat) : Nat := blk 0x38 + 0x8004 + i * 16
abbrev PCIE_MSIX_DATA (i : Nat) : Nat := blk 0x38 + 0x8008 + i * 16
abbrev PCIE_MSIX_CTRL (i : Nat) : Nat := blk 0x38 + 0x800C + i * 16
abbrev PCIE_PBA : Nat := blk 0x38 + 0x9000

/-! RING_ interrupt registers, block 0x41 (19) -/

abbrev RING_IRQ0 : Nat := blk 0x41 + 0x0
abbrev RING_IRQ1 : Nat := blk 0x41 + 0x4
abbrev RING_IRQ2 : Nat := blk 0x41 + 0x8
abbrev RING_IRQ_EN (i : Nat) : Nat := blk 0x41 + 0x10 + i * 4

/-! STW_ registers, block 0x51 (19) -/

abbrev STW_CLAIM : Nat := blk 0x51 + 0x0
abbrev STW_STATUS : Nat := blk 0x51 + 0x4
abbrev STW_REQ_GO : Nat := blk 0x51 + 0x8
abbrev STW_RSP_ACK : Nat := blk 0x51 + 0xC
abbrev STW_REQ (i : Nat) : Nat := blk 0x51 + 0x400 + i * 4
abbrev STW_RSP (i : Nat) : Nat := blk 0x51 + 0x1000 + i * 4

/-! GPIO_ registers, block 0x58 (20) -/

abbrev GPIO_IN : Nat := blk 0x58 + 0x0
abbrev GPIO_OUT : Nat := blk 0x58 + 0x4
abbrev GPIO_SET : Nat := blk 0x58 + 0x8
abbrev GPIO_CLR : Nat := blk 0x58 + 0xC
abbrev GPIO_DIR : Nat := blk 0x58 + 0x10
abbrev GPIO_ODRAIN : Nat := blk 0x58 + 0x14
abbrev GPIO_PULL0 : Nat := blk 0x58 + 0x18
abbrev GPIO_PULL1 : Nat := blk 0x58 + 0x1C
abbrev GPIO_IRQ_TYPE : Nat := blk 0x58 + 0x20
abbrev GPIO_IRQ_POL : Nat := blk 0x58 + 0x24
abbrev GPIO_IRQ_STATUS : Nat := blk 0x58 + 0x28
abbrev GPIO_IRQ_EN : Nat := blk 0x58 + 0x2C

/-! registers of one ring (19) -/

abbrev RING_BASE_LO (r : Nat) : Nat := blk 0x41 + (if r == 255 then 0x900 else 0x100 + r * 0x20) + 0x0
abbrev RING_BASE_HI (r : Nat) : Nat := blk 0x41 + (if r == 255 then 0x900 else 0x100 + r * 0x20) + 0x4
abbrev RING_CFG (r : Nat) : Nat := blk 0x41 + (if r == 255 then 0x900 else 0x100 + r * 0x20) + 0x8
abbrev RING_WP (r : Nat) : Nat := blk 0x41 + (if r == 255 then 0x900 else 0x100 + r * 0x20) + 0xC
abbrev RING_RP (r : Nat) : Nat := blk 0x41 + (if r == 255 then 0x900 else 0x100 + r * 0x20) + 0x10
abbrev RING_THRESH (r : Nat) : Nat := blk 0x41 + (if r == 255 then 0x900 else 0x100 + r * 0x20) + 0x14
abbrev RING_STAT (r : Nat) : Nat := blk 0x41 + (if r == 255 then 0x900 else 0x100 + r * 0x20) + 0x18
abbrev RING_OWED (r : Nat) : Nat := blk 0x41 + (if r == 255 then 0x900 else 0x100 + r * 0x20) + 0x1C

/-- A row of a register map: cnt registers at off and every stride bytes from there; reset value; the bits that are RW,
W1C, W1S, LOCK, ONCE and RC. Every other bit is RO, WO or reserved. -/
structure Row where
  off : Nat
  cnt : Nat
  stride : Nat
  rst : Nat
  rw : Nat
  w1c : Nat
  w1s : Nat
  lock : Nat
  once : Nat
  rc : Nat
  deriving DecidableEq, Repr

/-- Rows of the WV_ registers, block 0x40 (02, 10). -/
def wvRows : List Row :=
  [⟨0x0, 1, 0, 0x0, 0x0, 0x0, 0x100, 0x0, 0x0, 0x0⟩,
   ⟨0x4, 1, 0, 0x0, 0x0, 0x0, 0x0, 0x0, 0x0, 0x0⟩,
   ⟨0x8, 1, 0, 0x0, 0x0, 0x0, 0x0, 0xFFFFFFFF, 0x0, 0x0⟩,
   ⟨0xC, 1, 0, 0x0, 0x0, 0x0, 0x0, 0xFF, 0x0, 0x0⟩,
   ⟨0x10, 1, 0, 0x0, 0x0, 0x0, 0x0, 0xFFFFFFFF, 0x0, 0x0⟩,
   ⟨0x14, 1, 0, 0x0, 0x0, 0x0, 0x0, 0xFFFFFFFF, 0x0, 0x0⟩,
   ⟨0x18, 1, 0, 0x0, 0x0, 0x0, 0x0, 0xFFFFFFFF, 0x0, 0x0⟩,
   ⟨0x1C, 1, 0, 0x0, 0x0, 0x0, 0x0, 0x0, 0x0, 0x0⟩,
   ⟨0x20, 1, 0, 0x0, 0x0, 0x0, 0x0, 0x0, 0x0, 0x0⟩,
   ⟨0x24, 1, 0, 0x0, 0x0, 0x0, 0x0, 0x0, 0x0, 0x0⟩,
   ⟨0x28, 1, 0, 0x0, 0x0, 0x0, 0x0, 0x0, 0x0, 0x0⟩,
   ⟨0x2C, 1, 0, 0x0, 0x0, 0x0, 0x0, 0x0, 0x0, 0x0⟩,
   ⟨0x30, 1, 0, 0x0, 0x0, 0x0, 0x0, 0x0, 0x0, 0x0⟩,
   ⟨0x34, 1, 0, 0x0, 0x0, 0x0, 0x0, 0x0, 0x0, 0x0⟩,
   ⟨0x38, 1, 0, 0x0, 0x0, 0x0, 0x0, 0x0, 0x0, 0xFFFFFFFF⟩,
   ⟨0x3C, 1, 0, 0x0, 0x0, 0x0, 0x0, 0x0, 0x0, 0xFFFFFFFF⟩,
   ⟨0x40, 1, 0, 0x0, 0x0, 0x0, 0x0, 0x0, 0x0, 0x0⟩,
   ⟨0x44, 1, 0, 0x0, 0x0, 0x0, 0x0, 0x0, 0x0, 0x0⟩,
   ⟨0x48, 1, 0, 0x0, 0x0, 0x0, 0x0, 0x0, 0x0, 0x0⟩,
   ⟨0x4C, 1, 0, 0x0, 0x0, 0x0, 0x0, 0x0, 0x0, 0x0⟩,
   ⟨0x50, 1, 0, 0x0, 0x0, 0x0, 0x0, 0x0, 0x0, 0x0⟩,
   ⟨0x54, 1, 0, 0x0, 0x0, 0x0, 0x0, 0x0, 0x0, 0x0⟩,
   ⟨0x58, 1, 0, 0x0, 0x0, 0x0, 0x0, 0x0, 0x0, 0x3F03⟩,
   ⟨0x60, 4, 4, 0x0, 0x0, 0x0, 0x0, 0x0, 0x0, 0x0⟩,
   ⟨0x70, 1, 0, 0x0, 0x0, 0x7FF, 0x0, 0x0, 0x0, 0x0⟩,
   ⟨0x74, 1, 0, 0x0, 0x7FF, 0x0, 0x0, 0x0, 0x0, 0x0⟩,
   ⟨0x100, 1, 0, 0x0, 0x1, 0x0, 0x2, 0x0, 0x0, 0x0⟩,
   ⟨0x104, 1, 0, 0x1000, 0xFFFFFF, 0x0, 0x0, 0x0, 0x0, 0x0⟩,
   ⟨0x108, 1, 0, 0x0, 0x0, 0x0, 0x0, 0x0, 0x0, 0x0⟩,
   ⟨0x10C, 1, 0, 0x0, 0x0, 0x0, 0x0, 0x0, 0x0, 0x0⟩,
   ⟨0x110, 1, 0, 0x0, 0xFFFFFFF8, 0x0, 0x0, 0x0, 0x0, 0x0⟩,
   ⟨0x114, 1, 0, 0x0, 0xFF, 0x0, 0x0, 0x0, 0x0, 0x0⟩,
   ⟨0x118, 1, 0, 0x0, 0xFFFFF000, 0x0, 0x0, 0x0, 0x0, 0x0⟩,
   ⟨0x11C, 1, 0, 0x0, 0xFF, 0x0, 0x0, 0x0, 0x0, 0x0⟩,
   ⟨0x120, 1, 0, 0x0, 0x7FFF, 0x0, 0x0, 0x0, 0x0, 0x0⟩,
   ⟨0x124, 1, 0, 0x0, 0x0, 0x600, 0x0, 0x0, 0x0, 0x0⟩,
   ⟨0x128, 1, 0, 0x0, 0x0, 0x0, 0x0, 0x0, 0x0, 0x0⟩,
   ⟨0x130, 1, 0, 0x0, 0x0, 0xFFFF, 0x0, 0x0, 0x0, 0x0⟩,
   ⟨0x134, 1, 0, 0x0, 0xFFFF, 0x0, 0x0, 0x0, 0x0, 0x0⟩]

/-- Rows of the CORE_ registers of a core window (03 to 10). -/
def coreRows0 : List Row :=
  [⟨0x200, 1, 0, 0x0, 0x3, 0x100, 0x0, 0x0, 0x0, 0x0⟩,
   ⟨0x210, 4, 4, 0x0, 0x0, 0x30000, 0x0, 0x0, 0x0, 0x0⟩,
   ⟨0x220, 4, 4, 0x0, 0x0, 0x0, 0x0, 0x0, 0x0, 0x0⟩,
   ⟨0x230, 4, 4, 0x0, 0x0, 0x0, 0x0, 0x0, 0x0, 0xFFFFFFFF⟩,
   ⟨0x240, 4, 4, 0x0, 0x0, 0x0, 0x0, 0x0, 0x0, 0x0⟩,
   ⟨0x250, 4, 4, 0x0, 0x0, 0x0, 0x0, 0x0, 0x0, 0x0⟩,
   ⟨0x260, 4, 4, 0x0, 0x0, 0x0, 0x0, 0x0, 0x0, 0x0⟩,
   ⟨0x280, 1, 0, 0x0, 0x7, 0x100, 0x0, 0x0, 0x0, 0x0⟩,
   ⟨0x284, 1, 0, 0x0, 0x0, 0x3F, 0x0, 0x0, 0x0, 0x0⟩,
   ⟨0x288, 1, 0, 0x0, 0x0, 0x0, 0x0, 0x0, 0x0, 0xFFFFFFFF⟩,
   ⟨0x28C, 1, 0, 0x0, 0x0, 0x0, 0x0, 0x0, 0x0, 0xFFFFFFFF⟩,
   ⟨0x400, 256, 4, 0x0, 0x0, 0x0, 0x0, 0x0, 0x0, 0x0⟩,
   ⟨0x290, 1, 0, 0x800, 0x0, 0x1700, 0x0, 0x0, 0x0, 0x0⟩,
   ⟨0x294, 1, 0, 0x0, 0x0, 0x0, 0x0, 0x0, 0x0, 0x0⟩,
   ⟨0x298, 1, 0, 0x0, 0x0, 0x0, 0x0, 0x0, 0x0, 0x0⟩,
   ⟨0x800, 128, 4, 0x0, 0x0, 0x0, 0x0, 0x0, 0x0, 0x0⟩,
   ⟨0x300, 1, 0, 0x0, 0x0, 0xF, 0x0, 0x0, 0x0, 0x0⟩,
   ⟨0x304, 1, 0, 0x0, 0x0, 0x0, 0x0, 0x0, 0x0, 0x0⟩,
   ⟨0x308, 1, 0, 0x0, 0x0, 0x0, 0x0, 0x0, 0x0, 0xFFFFFFFF⟩,
   ⟨0x30C, 1, 0, 0x0, 0x0, 0x0, 0x0, 0x0, 0x0, 0xFFFFFFFF⟩,
   ⟨0x310, 1, 0, 0x0, 0x0, 0x0, 0x0, 0x0, 0x0, 0x0⟩,
   ⟨0x314, 1, 0, 0x0, 0x0, 0x0, 0x0, 0x0, 0x0, 0x1FF0000⟩,
   ⟨0x318, 1, 0, 0x0, 0x0, 0x0, 0x0, 0x0, 0x0, 0xFFFFFFFF⟩,
   ⟨0x340, 16, 4, 0x0, 0x0, 0x0, 0x0, 0x0, 0x0, 0x0⟩,
   ⟨0x2A0, 1, 0, 0x0, 0x0, 0x3F, 0x0, 0x0, 0x0, 0x0⟩,
   ⟨0x2A4, 1, 0, 0x0, 0x0, 0x0, 0x0, 0x0, 0x0, 0xFFFFFFFF⟩,
   ⟨0x2A8, 1, 0, 0x0, 0x0, 0x0, 0x0, 0x0, 0x0, 0xFFFFFFFF⟩,
   ⟨0x2AC, 1, 0, 0x0, 0x0, 0x0, 0x0, 0x0, 0x0, 0xFFFFFFFF⟩,
   ⟨0x2B0, 1, 0, 0x0, 0x0, 0x0, 0x0, 0x0, 0x0, 0xFFFFFFFF⟩,
   ⟨0x0, 1, 0, 0x0, 0x0, 0x0, 0x0, 0x0, 0x0, 0x0⟩,
   ⟨0x4, 1, 0, 0x0, 0x0, 0xF00, 0x0, 0x0, 0x0, 0x0⟩,
   ⟨0x8, 1, 0, 0x0, 0x0, 0x0, 0x0, 0x0, 0x0, 0x0⟩,
   ⟨0xC, 1, 0, 0x0, 0x0, 0x0, 0x0, 0x0, 0x0, 0x0⟩,
   ⟨0x10, 1, 0, 0x0, 0x0, 0x0, 0x0, 0x0, 0x0, 0x0⟩,
   ⟨0x14, 1, 0, 0x0, 0x0, 0x0, 0x0, 0x0, 0x0, 0x0⟩,
   ⟨0x18, 1, 0, 0x0, 0x0, 0x0, 0x0, 0x0, 0x0, 0x0⟩,
   ⟨0x1C, 1, 0, 0x0, 0x0, 0x0, 0x0, 0x0, 0x0, 0x0⟩,
   ⟨0x20, 1, 0, 0x0, 0x0, 0x0, 0x0, 0x0, 0x0, 0x0⟩,
   ⟨0x24, 1, 0, 0x0, 0x0, 0x0, 0x0, 0x0, 0x0, 0x0⟩,
   ⟨0x28, 1, 0, 0x0, 0x0, 0x0, 0x0, 0x0, 0x0, 0x0⟩]

/-- Further rows of the CORE_ registers of a core window (03 to 10). -/
def coreRows1 : List Row :=
  [⟨0x2C, 1, 0, 0x0, 0x0, 0x0, 0x0, 0x0, 0x0, 0x0⟩,
   ⟨0x30, 1, 0, 0x0, 0x0, 0x0, 0x0, 0x0, 0x0, 0x0⟩,
   ⟨0x34, 1, 0, 0x0, 0x0, 0x0, 0x0, 0x0, 0x0, 0xFFFFFFFF⟩,
   ⟨0x38, 1, 0, 0x0, 0x0, 0x0, 0x0, 0x0, 0x0, 0xFFFFFFFF⟩,
   ⟨0x40, 4, 4, 0x0, 0x0, 0x0, 0x0, 0x0, 0x0, 0x0⟩,
   ⟨0x50, 4, 4, 0x0, 0x0, 0x0, 0x0, 0x0, 0x0, 0x0⟩,
   ⟨0xA00, 64, 4, 0x0, 0xFFFFFFFF, 0x0, 0x0, 0x0, 0x0, 0x0⟩,
   ⟨0xB00, 64, 4, 0x0, 0x0, 0x0, 0x0, 0x0, 0x0, 0x0⟩,
   ⟨0xC00, 32, 4, 0x0, 0xFFFFFFFF, 0x0, 0x0, 0x0, 0x0, 0x0⟩,
   ⟨0xC80, 16, 8, 0x0, 0xFFFFFFFF, 0x0, 0x0, 0x0, 0x0, 0x0⟩,
   ⟨0xC84, 16, 8, 0x0, 0xFF, 0x0, 0x0, 0x0, 0x0, 0x0⟩,
   ⟨0x80, 1, 0, 0x0, 0x3FF01FF, 0x0, 0x0, 0x0, 0x0, 0x0⟩,
   ⟨0x84, 1, 0, 0x0, 0xFFFF, 0x0, 0x0, 0x0, 0x0, 0x0⟩,
   ⟨0x88, 1, 0, 0x0, 0x0, 0x0, 0x0, 0x0, 0x0, 0x0⟩,
   ⟨0x8C, 1, 0, 0x0, 0x0, 0x0, 0x0, 0x0, 0x0, 0x0⟩,
   ⟨0x90, 1, 0, 0x0, 0x0, 0x0, 0x0, 0x0, 0x0, 0x0⟩,
   ⟨0x94, 1, 0, 0x10, 0x0, 0x0, 0x0, 0x0, 0x0, 0x0⟩]

/-- All rows of the CORE_ registers of a core window (03 to 10). -/
def coreRows : List Row := coreRows0 ++ coreRows1

/-- Rows of the CLU_ registers of a cluster window (06, 08, 15). -/
def cluRows : List Row :=
  [⟨0x100, 1, 0, 0xA0, 0x0, 0x0, 0x0, 0x0, 0x0, 0x0⟩,
   ⟨0x104, 1, 0, 0x0, 0x0, 0x0, 0x0, 0x0, 0x0, 0x0⟩,
   ⟨0x108, 1, 0, 0x0, 0x0, 0x0, 0x0, 0x0, 0x0, 0xFFFFFFFF⟩,
   ⟨0x10C, 1, 0, 0x0, 0x0, 0x0, 0x0, 0x0, 0x0, 0x0⟩,
   ⟨0x110, 1, 0, 0x0, 0x0, 0x0, 0x0, 0x0, 0x0, 0xFFFFFFFF⟩,
   ⟨0x114, 1, 0, 0x0, 0x0, 0x0, 0x0, 0x0, 0x0, 0xFFFFFFFF⟩,
   ⟨0x118, 1, 0, 0x0, 0x0, 0x0, 0x0, 0x0, 0x0, 0xFFFFFFFF⟩,
   ⟨0x0, 1, 0, 0x11, 0x0, 0x4000, 0x0, 0x0, 0x0, 0x0⟩,
   ⟨0x4, 1, 0, 0x0, 0xFF, 0x0, 0x0, 0x0, 0x0, 0x0⟩,
   ⟨0x8, 1, 0, 0x0, 0x0, 0x0, 0x0, 0x0, 0x0, 0x0⟩,
   ⟨0xC, 1, 0, 0x0, 0x0, 0x0, 0x0, 0x0, 0x0, 0xFFFFFFFF⟩,
   ⟨0x10, 8, 4, 0x0, 0xF, 0x0, 0x0, 0x0, 0x0, 0x0⟩,
   ⟨0x30, 1, 0, 0x0, 0x0, 0x0, 0x0, 0x0, 0x0, 0xFFFFFFFF⟩,
   ⟨0x40, 8, 4, 0x0, 0x0, 0x0, 0x0, 0x0, 0x0, 0x0⟩,
   ⟨0x200, 1, 0, 0x5A2D, 0xFFFF, 0x0, 0x0, 0x0, 0x0, 0x0⟩,
   ⟨0x204, 1, 0, 0x0, 0x0, 0x0, 0x0, 0x0, 0x0, 0xFFFFFFFF⟩,
   ⟨0x208, 1, 0, 0x0, 0x0, 0x0, 0x0, 0x0, 0x0, 0xFFFFFFFF⟩,
   ⟨0x20C, 1, 0, 0x0, 0x0, 0x0, 0x0, 0x0, 0x0, 0x0⟩]

/-- Rows of the SYS_ registers, block 0x00 (00, 06, 17). -/
def sysRows : List Row :=
  [⟨0x0, 1, 0, 0x1010960, 0x0, 0x0, 0x0, 0x0, 0x0, 0x0⟩,
   ⟨0x100, 1, 0, 0x0, 0x0, 0x0, 0x0, 0xFFFFFFFF, 0x0, 0x0⟩,
   ⟨0x104, 1, 0, 0x0, 0x0, 0x0, 0x0, 0xFF, 0x0, 0x0⟩,
   ⟨0x108, 1, 0, 0x0, 0x0, 0x0, 0x0, 0x0, 0x0, 0x0⟩,
   ⟨0x10C, 1, 0, 0x0, 0x0, 0x0, 0x0, 0x0, 0x0, 0x0⟩,
   ⟨0x110, 1, 0, 0x0, 0x0, 0x0, 0x0, 0x1F, 0x0, 0x0⟩,
   ⟨0x114, 1, 0, 0x0, 0x0, 0x1, 0x0, 0x0, 0x0, 0x0⟩,
   ⟨0x118, 1, 0, 0x0, 0x0, 0x0, 0x0, 0x0, 0x0, 0xFFFF0000⟩,
   ⟨0x120, 8, 4, 0xFFFF, 0x0, 0x0, 0x0, 0xFFFF, 0x0, 0x0⟩,
   ⟨0x1FC, 1, 0, 0x0, 0x0, 0x0, 0x1, 0x0, 0x0, 0x0⟩,
   ⟨0x10, 1, 0, 0x0, 0x0, 0x0, 0x0, 0x0, 0x0, 0x0⟩,
   ⟨0x14, 1, 0, 0x0, 0x0, 0x0, 0x0, 0x0, 0x0, 0x0⟩,
   ⟨0x18, 1, 0, 0x0, 0x0, 0x0, 0x0, 0x0, 0x0, 0x0⟩,
   ⟨0x1C, 1, 0, 0x0, 0xFFFFFFFF, 0x0, 0x0, 0x0, 0x0, 0x0⟩]

/-- Rows of the registers of one job client (10). -/
def jqRows : List Row :=
  [⟨0x0, 1, 0, 0x0, 0x0, 0x0, 0x0, 0xFFFFF000, 0x0, 0x0⟩,
   ⟨0x4, 1, 0, 0x0, 0x0, 0x0, 0x0, 0xFF, 0x0, 0x0⟩,
   ⟨0x8, 1, 0, 0x4, 0x0, 0x0, 0x0, 0xFFFF01FF, 0x0, 0x0⟩,
   ⟨0xC, 1, 0, 0x0, 0x0, 0x0, 0x0, 0xFFFFFFFF, 0x0, 0x0⟩,
   ⟨0x10, 1, 0, 0x0, 0x0, 0x0, 0x0, 0xFFFFFFFF, 0x0, 0x0⟩,
   ⟨0x14, 1, 0, 0x0, 0x0, 0x0, 0x0, 0xFFFFF000, 0x0, 0x0⟩,
   ⟨0x18, 1, 0, 0x0, 0x0, 0x0, 0x0, 0xFF, 0x0, 0x0⟩,
   ⟨0x1C, 1, 0, 0x0, 0xFFF, 0x0, 0x0, 0x0, 0x0, 0x0⟩,
   ⟨0x20, 1, 0, 0x0, 0x0, 0x0, 0x0, 0x0, 0x0, 0x0⟩,
   ⟨0x24, 1, 0, 0x0, 0x0, 0x0, 0x0, 0x0, 0x0, 0x0⟩,
   ⟨0x28, 1, 0, 0x0, 0x0, 0x0, 0x0, 0x0, 0x0, 0x0⟩,
   ⟨0x2C, 1, 0, 0x0, 0x0, 0x0, 0x0, 0x0, 0x0, 0x0⟩,
   ⟨0x30, 1, 0, 0x0, 0x0, 0x0, 0x0, 0x0, 0x0, 0x0⟩,
   ⟨0x34, 1, 0, 0x0, 0x0, 0x38, 0x0, 0x0, 0x0, 0x0⟩]

/-- Rows of the NET_ registers, blocks 0x30 and 0x31 (11). -/
def netRows : List Row :=
  [⟨0x0, 1, 0, 0x0, 0x1, 0x0, 0x0, 0x0, 0x0, 0x0⟩,
   ⟨0x4, 1, 0, 0x0, 0x0, 0x0, 0x0, 0x0, 0x0, 0x0⟩,
   ⟨0x8, 1, 0, 0x0, 0xFFFFFFFF, 0x0, 0x0, 0x0, 0x0, 0x0⟩,
   ⟨0xC, 1, 0, 0x0, 0xFFFF, 0x0, 0x0, 0x0, 0x0, 0x0⟩,
   ⟨0x10, 1, 0, 0x0, 0xFFFFFFFF, 0x0, 0x0, 0x0, 0x0, 0x0⟩,
   ⟨0x14, 1, 0, 0x0, 0xFFFFFFFF, 0x0, 0x0, 0x0, 0x0, 0x0⟩,
   ⟨0x18, 1, 0, 0x0, 0x0, 0x1, 0x0, 0x0, 0x0, 0x0⟩,
   ⟨0x20, 1, 0, 0x0, 0xFFFFF000, 0x0, 0x0, 0x0, 0x0, 0x0⟩,
   ⟨0x24, 1, 0, 0x0, 0xFF, 0x0, 0x0, 0x0, 0x0, 0x0⟩,
   ⟨0x28, 1, 0, 0x0, 0xFFFFF000, 0x0, 0x0, 0x0, 0x0, 0x0⟩,
   ⟨0x2C, 1, 0, 0x0, 0xFF, 0x0, 0x0, 0x0, 0x0, 0x0⟩,
   ⟨0x30, 1, 0, 0x0, 0x3FF, 0x0, 0x0, 0x0, 0x0, 0x0⟩,
   ⟨0x34, 1, 0, 0x0, 0x3FF, 0x0, 0x0, 0x0, 0x0, 0x0⟩,
   ⟨0x38, 1, 0, 0x0, 0x0, 0x0, 0x0, 0x0, 0x0, 0x0⟩,
   ⟨0x3C, 1, 0, 0x0, 0x0, 0x0, 0x0, 0x0, 0x0, 0x0⟩,
   ⟨0x40, 1, 0, 0x0, 0x3FF, 0x0, 0x0, 0x0, 0x0, 0x0⟩,
   ⟨0x80, 1, 0, 0x0, 0x0, 0x0, 0x0, 0x0, 0x0, 0xFFFFFFFF⟩,
   ⟨0x84, 1, 0, 0x0, 0x0, 0x0, 0x0, 0x0, 0x0, 0xFFFFFFFF⟩,
   ⟨0x88, 1, 0, 0x0, 0x0, 0x0, 0x0, 0x0, 0x0, 0xFFFFFFFF⟩,
   ⟨0x8C, 1, 0, 0x0, 0x0, 0x0, 0x0, 0x0, 0x0, 0xFFFFFFFF⟩,
   ⟨0x90, 1, 0, 0x0, 0x0, 0x0, 0x0, 0x0, 0x0, 0xFFFFFFFF⟩,
   ⟨0x94, 1, 0, 0x0, 0x0, 0x0, 0x0, 0x0, 0x0, 0xFFFFFFFF⟩,
   ⟨0x98, 1, 0, 0x0, 0x0, 0x0, 0x0, 0x0, 0x0, 0xFFFFFFFF⟩,
   ⟨0x9C, 1, 0, 0x0, 0x0, 0x0, 0x0, 0x0, 0x0, 0xFFFFFFFF⟩,
   ⟨0xA0, 1, 0, 0x0, 0x0, 0x0, 0x0, 0x0, 0x0, 0xFFFFFFFF⟩,
   ⟨0xA4, 1, 0, 0x0, 0x0, 0x0, 0x0, 0x0, 0x0, 0xFFFFFFFF⟩,
   ⟨0xA8, 1, 0, 0x0, 0x0, 0x0, 0x0, 0x0, 0x0, 0xFFFFFFFF⟩,
   ⟨0x200, 1, 0, 0x0, 0x1FF, 0x0, 0x0, 0x0, 0x0, 0x0⟩,
   ⟨0x204, 1, 0, 0x0, 0xFFFFFFFF, 0x0, 0x0, 0x0, 0x0, 0x0⟩,
   ⟨0x208, 1, 0, 0x0, 0xFFFFFFFF, 0x0, 0x0, 0x0, 0x0, 0x0⟩,
   ⟨0x20C, 1, 0, 0x0, 0xFFFFFFFF, 0x0, 0x0, 0x0, 0x0, 0x0⟩,
   ⟨0x210, 1, 0, 0x0, 0x0, 0x0, 0x0, 0x0, 0x0, 0x0⟩,
   ⟨0x10000, 8192, 4, 0x0, 0x0, 0x0, 0x0, 0x0, 0x0, 0x0⟩,
   ⟨0x18000, 2048, 4, 0x0, 0x0, 0x0, 0x0, 0x0, 0x0, 0x0⟩]

/-- Rows of the VDEC_ registers, block 0x20 (11). -/
def vdecRows : List Row :=
  [⟨0x0, 1, 0, 0x3F, 0x0, 0x0, 0x0, 0x0, 0x0, 0x0⟩,
   ⟨0x4, 1, 0, 0x0, 0x0, 0x0, 0x0, 0x0, 0x0, 0x0⟩,
   ⟨0x8, 1, 0, 0x0, 0x0, 0x0, 0x0, 0xFFFF0000, 0x0, 0x0⟩,
   ⟨0xC, 1, 0, 0x0, 0x0, 0x0, 0x0, 0xFF, 0x0, 0x0⟩,
   ⟨0x10, 1, 0, 0x0, 0x0, 0xF, 0x0, 0x0, 0x0, 0x0⟩,
   ⟨0x14, 1, 0, 0x0, 0xF, 0x0, 0x0, 0x0, 0x0, 0x0⟩,
   ⟨0x18, 1, 0, 0x0, 0x0, 0x0, 0x1, 0x0, 0x0, 0x0⟩,
   ⟨0x20, 16, 4, 0x0, 0x0, 0xFFFFFFFF, 0x0, 0x0, 0x0, 0x0⟩,
   ⟨0x60, 1, 0, 0x0, 0x0, 0x0, 0x0, 0x0, 0x0, 0xFFFFFFFF⟩,
   ⟨0x64, 1, 0, 0x0, 0x0, 0x0, 0x0, 0x0, 0x0, 0xFFFFFFFF⟩,
   ⟨0x68, 1, 0, 0x0, 0x0, 0x0, 0x0, 0x0, 0x0, 0xFFFFFFFF⟩,
   ⟨0x6C, 1, 0, 0x0, 0x0, 0x0, 0x0, 0x0, 0x0, 0xFFFFFFFF⟩,
   ⟨0x70, 1, 0, 0x0, 0x0, 0x0, 0x0, 0x0, 0x0, 0xFFFFFFFF⟩]

/-- Rows of the VENC_ and JPG_ registers, blocks 0x21 and 0x22 (11). -/
def vencRows : List Row :=
  [⟨0x0, 1, 0, 0x0, 0xFFFFF000, 0x0, 0x0, 0x0, 0x0, 0x0⟩,
   ⟨0x4, 1, 0, 0x0, 0xFF, 0x0, 0x0, 0x0, 0x0, 0x0⟩,
   ⟨0x8, 1, 0, 0x4, 0x10F, 0x0, 0x0, 0x0, 0x0, 0x0⟩,
   ⟨0xC, 1, 0, 0x0, 0x3FF, 0x0, 0x0, 0x0, 0x0, 0x0⟩,
   ⟨0x10, 1, 0, 0x0, 0x0, 0x0, 0x0, 0x0, 0x0, 0x0⟩,
   ⟨0x14, 1, 0, 0x0, 0x0, 0x0, 0x0, 0x0, 0x0, 0x0⟩,
   ⟨0x18, 1, 0, 0x0, 0x0, 0x1, 0x0, 0x0, 0x0, 0x0⟩,
   ⟨0x1C, 1, 0, 0x0, 0x1, 0x0, 0x0, 0x0, 0x0, 0x0⟩]

/-- Rows of the TBS_ registers, block 0x33 (11). -/
def tbsRows : List Row :=
  [⟨0x0, 1, 0, 0x0, 0x0, 0x0, 0x0, 0x0, 0x0, 0x0⟩,
   ⟨0x4, 1, 0, 0x0, 0x0, 0x0, 0x0, 0x0, 0x0, 0x0⟩,
   ⟨0x8, 1, 0, 0x0, 0xFFFFFFFF, 0x0, 0x0, 0x0, 0x0, 0x0⟩,
   ⟨0xC, 1, 0, 0x0, 0xFFFFFFFF, 0x0, 0x0, 0x0, 0x0, 0x0⟩,
   ⟨0x10, 1, 0, 0x0, 0x0, 0x0, 0x0, 0x0, 0x0, 0x0⟩,
   ⟨0x14, 1, 0, 0x0, 0xFFFFFFFF, 0x0, 0x0, 0x0, 0x0, 0x0⟩,
   ⟨0x18, 1, 0, 0x0, 0x0, 0x0, 0x0, 0x0, 0x0, 0x0⟩,
   ⟨0x1C, 1, 0, 0x0, 0x0, 0x2, 0x0, 0x0, 0x0, 0x0⟩,
   ⟨0x20, 1, 0, 0x0, 0x3F, 0x0, 0x0, 0x0, 0x0, 0x0⟩]

/-- Rows of the PIX_ registers, blocks 0x28 to 0x2B (12). -/
def pixRows : List Row :=
  [⟨0x0, 1, 0, 0x0, 0x1, 0x0, 0x0, 0x0, 0x0, 0x0⟩,
   ⟨0x4, 1, 0, 0x80, 0x7FF, 0x0, 0x0, 0x0, 0x0, 0x0⟩,
   ⟨0x8, 1, 0, 0x0, 0x1FFF1FFF, 0x0, 0x0, 0x0, 0x0, 0x0⟩,
   ⟨0xC, 1, 0, 0x0, 0xFFF0FFF, 0x0, 0x0, 0x0, 0x0, 0x0⟩,
   ⟨0x10, 1, 0, 0xF4240, 0xFFFFF, 0x0, 0x0, 0x0, 0x0, 0x0⟩,
   ⟨0x14, 1, 0, 0x64, 0x3FF, 0x0, 0x0, 0x0, 0x0, 0x0⟩,
   ⟨0x18, 1, 0, 0x0, 0xFFFFFFFF, 0x0, 0x0, 0x0, 0x0, 0x0⟩,
   ⟨0x1C, 1, 0, 0x0, 0x0, 0x4, 0x0, 0x0, 0x0, 0x0⟩,
   ⟨0x20, 1, 0, 0x0, 0x0, 0x7F, 0x0, 0x0, 0x0, 0x0⟩,
   ⟨0x24, 1, 0, 0x0, 0x7F, 0x0, 0x0, 0x0, 0x0, 0x0⟩,
   ⟨0x28, 1, 0, 0x0, 0x0, 0x0, 0x0, 0x0, 0x0, 0x0⟩,
   ⟨0x2C, 1, 0, 0x0, 0x0, 0x0, 0x0, 0x0, 0x0, 0x0⟩,
   ⟨0x40, 1, 0, 0x0, 0x0, 0x0, 0x0, 0x0, 0x0, 0xFFFFFFFF⟩,
   ⟨0x44, 1, 0, 0x0, 0x0, 0x0, 0x0, 0x0, 0x0, 0xFFFFFFFF⟩,
   ⟨0x48, 1, 0, 0x0, 0x0, 0x0, 0x0, 0x0, 0x0, 0xFFFFFFFF⟩,
   ⟨0x4C, 1, 0, 0x0, 0x0, 0x0, 0x0, 0x0, 0x0, 0xFFFFFFFF⟩,
   ⟨0x50, 1, 0, 0x0, 0x0, 0x0, 0x0, 0x0, 0x0, 0xFFFFFFFF⟩,
   ⟨0x54, 1, 0, 0x0, 0x0, 0x0, 0x0, 0x0, 0x0, 0xFFFFFFFF⟩]

/-- Rows of the ISP_ registers, block 0x2C (12). -/
def ispRows : List Row :=
  [⟨0x0, 1, 0, 0x0, 0x0, 0x0, 0x0, 0x0, 0x0, 0x0⟩,
   ⟨0x4, 1, 0, 0x0, 0x0, 0x0, 0x0, 0x0, 0x0, 0x0⟩,
   ⟨0x8, 1, 0, 0x0, 0x0, 0x0, 0x0, 0xFFFFF000, 0x0, 0x0⟩,
   ⟨0xC, 1, 0, 0x0, 0x0, 0x0, 0x0, 0xFF, 0x0, 0x0⟩,
   ⟨0x10, 1, 0, 0x0, 0x0, 0xF, 0x0, 0x0, 0x0, 0x0⟩,
   ⟨0x14, 1, 0, 0x0, 0xF, 0x0, 0x0, 0x0, 0x0, 0x0⟩,
   ⟨0x18, 1, 0, 0x0, 0x0, 0x0, 0x1, 0x0, 0x0, 0x0⟩,
   ⟨0x20, 4, 8, 0x0, 0x0, 0x0, 0x0, 0xFFFFFFC0, 0x0, 0x0⟩,
   ⟨0x24, 4, 8, 0x0, 0x0, 0x0, 0x0, 0xFF, 0x0, 0x0⟩,
   ⟨0x40, 4, 8, 0x0, 0x0, 0x0, 0x0, 0x0, 0x0, 0x0⟩,
   ⟨0x44, 4, 8, 0x0, 0x0, 0x0, 0x0, 0x0, 0x0, 0x0⟩,
   ⟨0x60, 1, 0, 0x0, 0x0, 0x0, 0x0, 0x0, 0x0, 0xFFFFFFFF⟩,
   ⟨0x64, 1, 0, 0x0, 0x0, 0x0, 0x0, 0x0, 0x0, 0xFFFFFFFF⟩,
   ⟨0x68, 1, 0, 0x0, 0x0, 0x0, 0x0, 0x0, 0x0, 0xFFFFFFFF⟩,
   ⟨0x10000, 578, 4, 0x10001000, 0xFFFFFFFF, 0x0, 0x0, 0x0, 0x0, 0x0⟩,
   ⟨0x11000, 578, 4, 0x10001000, 0xFFFFFFFF, 0x0, 0x0, 0x0, 0x0, 0x0⟩,
   ⟨0x12000, 578, 4, 0x10001000, 0xFFFFFFFF, 0x0, 0x0, 0x0, 0x0, 0x0⟩,
   ⟨0x13000, 578, 4, 0x10001000, 0xFFFFFFFF, 0x0, 0x0, 0x0, 0x0, 0x0⟩,
   ⟨0x14000, 129, 4, 0x0, 0x3FF, 0x0, 0x0, 0x0, 0x0, 0x0⟩,
   ⟨0x14400, 129, 4, 0x0, 0x3FF, 0x0, 0x0, 0x0, 0x0, 0x0⟩,
   ⟨0x14800, 129, 4, 0x0, 0x3FF, 0x0, 0x0, 0x0, 0x0, 0x0⟩,
   ⟨0x14C00, 129, 4, 0x0, 0x3FF, 0x0, 0x0, 0x0, 0x0, 0x0⟩]

/-- Rows of the one ISP context (12). -/
def ispctxRows : List Row :=
  [⟨0x0, 1, 0, 0xF, 0xF, 0x0, 0x0, 0x0, 0x0, 0x0⟩,
   ⟨0x4, 1, 0, 0x0, 0xFFF0FFF, 0x0, 0x0, 0x0, 0x0, 0x0⟩,
   ⟨0x8, 1, 0, 0x0, 0xFFF0FFF, 0x0, 0x0, 0x0, 0x0, 0x0⟩,
   ⟨0xC, 1, 0, 0x100, 0xFFF, 0x0, 0x0, 0x0, 0x0, 0x0⟩,
   ⟨0x10, 1, 0, 0x10001000, 0xFFFFFFFF, 0x0, 0x0, 0x0, 0x0, 0x0⟩,
   ⟨0x14, 1, 0, 0x10001000, 0xFFFFFFFF, 0x0, 0x0, 0x0, 0x0, 0x0⟩,
   ⟨0x18, 1, 0, 0x1000, 0xFFFF, 0x0, 0x0, 0x0, 0x0, 0x0⟩,
   ⟨0x1C, 1, 0, 0x400, 0xFFFFFFFF, 0x0, 0x0, 0x0, 0x0, 0x0⟩,
   ⟨0x20, 1, 0, 0x0, 0xFFFFFFFF, 0x0, 0x0, 0x0, 0x0, 0x0⟩,
   ⟨0x24, 1, 0, 0x400, 0xFFFFFFFF, 0x0, 0x0, 0x0, 0x0, 0x0⟩,
   ⟨0x28, 1, 0, 0x0, 0xFFFFFFFF, 0x0, 0x0, 0x0, 0x0, 0x0⟩,
   ⟨0x2C, 1, 0, 0x400, 0xFFFF, 0x0, 0x0, 0x0, 0x0, 0x0⟩,
   ⟨0x30, 1, 0, 0x0, 0x1FFF1FFF, 0x0, 0x0, 0x0, 0x0, 0x0⟩,
   ⟨0x34, 1, 0, 0x0, 0x1FFF, 0x0, 0x0, 0x0, 0x0, 0x0⟩,
   ⟨0x38, 1, 0, 0x0, 0xFFFFFFFF, 0x0, 0x0, 0x0, 0x0, 0x0⟩,
   ⟨0x3C, 1, 0, 0x0, 0xFFFFFFFF, 0x0, 0x0, 0x0, 0x0, 0x0⟩,
   ⟨0x40, 1, 0, 0x0, 0xFFFFFFFF, 0x0, 0x0, 0x0, 0x0, 0x0⟩,
   ⟨0x44, 1, 0, 0x0, 0xFFFFFFFF, 0x0, 0x0, 0x0, 0x0, 0x0⟩,
   ⟨0x48, 1, 0, 0x0, 0xFFFF, 0x0, 0x0, 0x0, 0x0, 0x0⟩,
   ⟨0x4C, 1, 0, 0x808000, 0xFFFFFF, 0x0, 0x0, 0x0, 0x0, 0x0⟩,
   ⟨0x50, 1, 0, 0x0, 0x1FFF1FFF, 0x0, 0x0, 0x0, 0x0, 0x0⟩,
   ⟨0x54, 1, 0, 0x0, 0x1FFF1FFF, 0x0, 0x0, 0x0, 0x0, 0x0⟩,
   ⟨0x58, 1, 0, 0xFF0, 0xFFF, 0x0, 0x0, 0x0, 0x0, 0x0⟩,
   ⟨0x5C, 1, 0, 0x40, 0xFFF, 0x0, 0x0, 0x0, 0x0, 0x0⟩,
   ⟨0x60, 1, 0, 0x0, 0x0, 0x0, 0x0, 0x0, 0x0, 0x0⟩,
   ⟨0x64, 1, 0, 0x0, 0x0, 0x0, 0x0, 0x0, 0x0, 0x0⟩]

/-- Rows of the DMC_ registers, block 0x08 (13). -/
def dmcRows : List Row :=
  [⟨0x0, 1, 0, 0x0, 0x0, 0x0, 0x0, 0x0, 0x0, 0x0⟩,
   ⟨0x4, 1, 0, 0x0, 0x0, 0x0, 0x0, 0x0, 0x0, 0x0⟩,
   ⟨0x8, 1, 0, 0x0, 0x0, 0x0, 0x0, 0x0, 0x0, 0x0⟩,
   ⟨0xC, 1, 0, 0x2, 0x2, 0x0, 0x0, 0x0, 0x0, 0x0⟩,
   ⟨0x10, 1, 0, 0x0, 0x0, 0x0, 0x0, 0x0, 0x0, 0x0⟩,
   ⟨0x14, 1, 0, 0x0, 0x0, 0x1, 0x0, 0x0, 0x0, 0x0⟩,
   ⟨0x18, 1, 0, 0x8, 0x0, 0x0, 0x0, 0xFFFF, 0x0, 0x0⟩,
   ⟨0x20, 1, 0, 0x200, 0x0, 0x0, 0x0, 0xFFFFFFFF, 0x0, 0x0⟩,
   ⟨0x24, 1, 0, 0x400, 0x0, 0x0, 0x0, 0xFFFFFFFF, 0x0, 0x0⟩,
   ⟨0x28, 1, 0, 0x800, 0x0, 0x0, 0x0, 0xFFFFFFFF, 0x0, 0x0⟩,
   ⟨0x2C, 1, 0, 0x1000, 0x0, 0x0, 0x0, 0xFFFFFFFF, 0x0, 0x0⟩,
   ⟨0x30, 1, 0, 0x8000, 0x0, 0x0, 0x0, 0xFFFFFFFF, 0x0, 0x0⟩,
   ⟨0x34, 1, 0, 0x10000, 0x0, 0x0, 0x0, 0xFFFFFFFF, 0x0, 0x0⟩,
   ⟨0x38, 1, 0, 0x20000, 0x0, 0x0, 0x0, 0xFFFFFFFF, 0x0, 0x0⟩,
   ⟨0x3C, 1, 0, 0x40000, 0x0, 0x0, 0x0, 0xFFFFFFFF, 0x0, 0x0⟩,
   ⟨0x40, 1, 0, 0x0, 0x0, 0x0, 0x0, 0xFFFFFFFF, 0x0, 0x0⟩,
   ⟨0x44, 1, 0, 0x0, 0x0, 0x0, 0x0, 0xFFFFFFFF, 0x0, 0x0⟩,
   ⟨0x48, 1, 0, 0xC8, 0xFFF, 0x0, 0x0, 0x0, 0x0, 0x0⟩,
   ⟨0x4C, 1, 0, 0x40, 0xFFFF, 0x0, 0x0, 0x0, 0x0, 0x0⟩,
   ⟨0x50, 1, 0, 0xFFF, 0x0, 0x0, 0x0, 0xFFF, 0x0, 0x0⟩,
   ⟨0x54, 7, 4, 0x200, 0x0, 0x0, 0x0, 0xFFF, 0x0, 0x0⟩,
   ⟨0x70, 1, 0, 0xFA, 0x0, 0x0, 0x0, 0xFFF, 0x0, 0x0⟩,
   ⟨0x80, 1, 0, 0x0, 0x0, 0x1F, 0x0, 0x0, 0x0, 0x0⟩,
   ⟨0x84, 1, 0, 0x0, 0x1F, 0x0, 0x0, 0x0, 0x0, 0x0⟩,
   ⟨0xF0, 1, 0, 0x0, 0x0, 0x0, 0x1, 0x0, 0x0, 0x0⟩]

/-- Rows of the DCH_ registers, blocks 0x09 to 0x18 (13). -/
def dchRows : List Row :=
  [⟨0x0, 1, 0, 0x0, 0x0, 0x0, 0x0, 0x0, 0x0, 0x0⟩,
   ⟨0x4, 1, 0, 0x0, 0x0, 0x0, 0x0, 0x0, 0x0, 0xFFFFFFFF⟩,
   ⟨0x8, 1, 0, 0x0, 0x0, 0x0, 0x0, 0x0, 0x0, 0xFFFFFFFF⟩,
   ⟨0xC, 1, 0, 0x0, 0x0, 0x0, 0x0, 0x0, 0x0, 0xFFFFFFFF⟩,
   ⟨0x10, 1, 0, 0x0, 0x0, 0x0, 0x0, 0x0, 0x0, 0x0⟩,
   ⟨0x14, 1, 0, 0x0, 0x0, 0x0, 0x0, 0x0, 0x0, 0x0⟩,
   ⟨0x18, 1, 0, 0x0, 0x0, 0x0, 0x0, 0x0, 0x0, 0x0⟩,
   ⟨0x1C, 1, 0, 0x0, 0x0, 0x0, 0x0, 0x0, 0x0, 0x0⟩,
   ⟨0x20, 1, 0, 0x0, 0x0, 0x0, 0x0, 0x0, 0x0, 0xFFFFFFFF⟩,
   ⟨0x24, 1, 0, 0x0, 0x0, 0x0, 0x0, 0x0, 0x0, 0xFFFFFFFF⟩,
   ⟨0x28, 1, 0, 0x0, 0x0, 0x0, 0x0, 0x0, 0x0, 0xFFFFFFFF⟩,
   ⟨0x2C, 1, 0, 0x0, 0x0, 0x0, 0x0, 0x0, 0x0, 0xFFFFFFFF⟩,
   ⟨0x30, 1, 0, 0x0, 0x0, 0x0, 0x0, 0x0, 0x0, 0xFFFFFFFF⟩,
   ⟨0x34, 1, 0, 0x0, 0x0, 0x0, 0x0, 0x0, 0x0, 0xFFFFFFFF⟩,
   ⟨0x38, 1, 0, 0x0, 0x0, 0x0, 0x0, 0x0, 0x0, 0xFFFFFFFF⟩,
   ⟨0x3C, 1, 0, 0x0, 0x0, 0x0, 0x0, 0x0, 0x0, 0x3F7F0000⟩,
   ⟨0x40, 1, 0, 0x0, 0x0, 0x0, 0x0, 0x0, 0x0, 0x0⟩]

/-- Rows of the RAS_ registers, block 0x49 (14). -/
def rasRows : List Row :=
  [⟨0x0, 1, 0, 0x0, 0x0, 0x0, 0x0, 0x0, 0x0, 0x0⟩,
   ⟨0x4, 1, 0, 0x0, 0x0, 0x1F, 0x0, 0x0, 0x0, 0x0⟩,
   ⟨0x8, 1, 0, 0x0, 0x1F, 0x0, 0x0, 0x0, 0x0, 0x0⟩,
   ⟨0x10, 1, 0, 0x0, 0x0, 0x0, 0x0, 0x0, 0x0, 0xFFFFFFFF⟩,
   ⟨0x14, 1, 0, 0x0, 0x0, 0x0, 0x0, 0x0, 0x0, 0xFFFFFFFF⟩,
   ⟨0x18, 1, 0, 0x0, 0x0, 0x0, 0x0, 0x0, 0x0, 0xFFFFFFFF⟩,
   ⟨0x20, 1, 0, 0x0, 0x0, 0x0, 0x0, 0x0, 0x0, 0xFFFFFFFF⟩,
   ⟨0x24, 1, 0, 0x0, 0x0, 0x0, 0x0, 0x0, 0x0, 0x0⟩,
   ⟨0x28, 1, 0, 0x0, 0x0, 0x0, 0x0, 0x0, 0x0, 0x0⟩,
   ⟨0x2C, 1, 0, 0x0, 0x0, 0x0, 0x0, 0x0, 0x0, 0xFFFFFFFF⟩,
   ⟨0x30, 1, 0, 0x0, 0x0, 0x0, 0x0, 0x0, 0x0, 0x0⟩,
   ⟨0x34, 1, 0, 0x0, 0x0, 0x0, 0x0, 0x0, 0x0, 0x0⟩,
   ⟨0x40, 1, 0, 0x0, 0x0, 0x0, 0x0, 0x0, 0x0, 0x0⟩,
   ⟨0x44, 1, 0, 0x0, 0x0, 0x0, 0x0, 0x0, 0x0, 0x0⟩,
   ⟨0x48, 1, 0, 0x0, 0x0, 0x0, 0x0, 0x0, 0x0, 0x0⟩,
   ⟨0x4C, 1, 0, 0x0, 0x0, 0x0, 0x0, 0x0, 0x0, 0x0⟩,
   ⟨0x50, 1, 0, 0x0, 0x0, 0x0, 0x0, 0x0, 0x0, 0x0⟩,
   ⟨0x1000, 2048, 4, 0x0, 0x0, 0x0, 0x0, 0x0, 0x0, 0x0⟩]

/-- Rows of the SCRB_ registers, block 0x48 (14). -/
def scrbRows : List Row :=
  [⟨0x0, 1, 0, 0x0, 0x0, 0x0, 0x0, 0x0, 0x0, 0x0⟩,
   ⟨0x4, 1, 0, 0x0, 0x0, 0xC, 0x0, 0x0, 0x0, 0x0⟩,
   ⟨0x8, 1, 0, 0x0, 0xFFFFFF80, 0x0, 0x0, 0x0, 0x0, 0x0⟩,
   ⟨0xC, 1, 0, 0x0, 0xFF, 0x0, 0x0, 0x0, 0x0, 0x0⟩,
   ⟨0x10, 1, 0, 0x0, 0xFFFFFF80, 0x0, 0x0, 0x0, 0x0, 0x0⟩,
   ⟨0x14, 1, 0, 0x0, 0xFF, 0x0, 0x0, 0x0, 0x0, 0x0⟩,
   ⟨0x18, 1, 0, 0x800, 0xFFF, 0x0, 0x0, 0x0, 0x0, 0x0⟩,
   ⟨0x1C, 1, 0, 0x0, 0x0, 0x0, 0x0, 0x0, 0x0, 0x0⟩,
   ⟨0x20, 1, 0, 0x0, 0x0, 0x0, 0x0, 0x0, 0x0, 0x0⟩,
   ⟨0x40, 1, 0, 0x0, 0x0, 0x0, 0x0, 0x0, 0x0, 0x0⟩,
   ⟨0x44, 1, 0, 0x0, 0x0, 0x0, 0x0, 0x0, 0x0, 0x0⟩,
   ⟨0x48, 1, 0, 0x0, 0x0, 0x0, 0x0, 0x0, 0x0, 0x0⟩,
   ⟨0x4C, 1, 0, 0x0, 0x0, 0x0, 0x0, 0x0, 0x0, 0x0⟩,
   ⟨0x50, 1, 0, 0x0, 0x0, 0x0, 0x0, 0x0, 0x0, 0x0⟩,
   ⟨0x54, 1, 0, 0x0, 0x0, 0x0, 0x0, 0x0, 0x0, 0x0⟩,
   ⟨0x58, 1, 0, 0x0, 0x0, 0x0, 0x0, 0x0, 0x0, 0x0⟩,
   ⟨0x5C, 1, 0, 0x0, 0x0, 0x0, 0x0, 0x0, 0x0, 0x0⟩,
   ⟨0x60, 1, 0, 0x0, 0x0, 0x0, 0x0, 0x0, 0x0, 0x0⟩,
   ⟨0x64, 1, 0, 0x0, 0x0, 0x0, 0x0, 0x0, 0x0, 0x0⟩]

/-- Rows of the PWR_ registers, block 0x03 (15). -/
def pwrRows : List Row :=
  [⟨0x0, 1, 0, 0x3C, 0x0, 0x0, 0x0, 0xFF, 0x0, 0x0⟩,
   ⟨0x4, 1, 0, 0x2A, 0x3FF, 0x0, 0x0, 0x0, 0x0, 0x0⟩,
   ⟨0x8, 1, 0, 0x0, 0x0, 0x12, 0x0, 0x0, 0x0, 0x0⟩,
   ⟨0xC, 1, 0, 0x5, 0xFF, 0x0, 0x0, 0x0, 0x0, 0x0⟩,
   ⟨0x10, 1, 0, 0x26C0, 0x0, 0x0, 0x0, 0x0, 0x0, 0x0⟩,
   ⟨0x14, 1, 0, 0x26C0, 0x0, 0x0, 0x0, 0x0, 0x0, 0x0⟩,
   ⟨0x18, 1, 0, 0x0, 0x0, 0x0, 0x0, 0x0, 0x0, 0x0⟩,
   ⟨0x1C, 1, 0, 0x0, 0x0, 0x0, 0x0, 0x0, 0x0, 0x0⟩,
   ⟨0x20, 1, 0, 0x0, 0x0, 0x0, 0x0, 0x0, 0x0, 0x0⟩,
   ⟨0x24, 1, 0, 0x0, 0x0, 0x0, 0x0, 0x0, 0x0, 0x0⟩,
   ⟨0x28, 1, 0, 0x0, 0x0, 0x0, 0x0, 0x0, 0x0, 0x0⟩,
   ⟨0x2C, 1, 0, 0x0, 0x0, 0x0, 0x0, 0x0, 0x0, 0x0⟩,
   ⟨0x30, 1, 0, 0x10, 0x0, 0x0, 0x0, 0x0, 0x0, 0x0⟩,
   ⟨0x34, 1, 0, 0x19695F, 0x0, 0x0, 0x0, 0xFFFFFF, 0x0, 0x0⟩,
   ⟨0x38, 1, 0, 0x190A, 0x0, 0x0, 0x0, 0xFFFF, 0x0, 0x0⟩,
   ⟨0x3C, 1, 0, 0xBB8, 0xFFFF, 0x0, 0x0, 0x0, 0x0, 0x0⟩,
   ⟨0x40, 1, 0, 0x0, 0x0, 0xFF, 0x0, 0x0, 0x0, 0x0⟩,
   ⟨0x44, 1, 0, 0x0, 0xFF, 0x0, 0x0, 0x0, 0x0, 0x0⟩,
   ⟨0x48, 1, 0, 0x0, 0x0, 0x0, 0x0, 0x0, 0x0, 0xFFFFFFFF⟩,
   ⟨0x4C, 1, 0, 0x0, 0x0, 0x0, 0x0, 0x0, 0x0, 0xFFFFFFFF⟩,
   ⟨0x50, 1, 0, 0x0, 0x1FF, 0x200, 0x0, 0x0, 0x0, 0x0⟩,
   ⟨0x54, 1, 0, 0x5A3C, 0x0, 0x0, 0x0, 0xFFFF, 0x0, 0x0⟩,
   ⟨0x58, 1, 0, 0x0, 0x0, 0x0, 0x0, 0x0, 0x0, 0x0⟩,
   ⟨0xF0, 1, 0, 0x0, 0x0, 0x0, 0x1, 0x0, 0x0, 0x0⟩,
   ⟨0x100, 30, 4, 0x0, 0x0, 0x0, 0x0, 0x0, 0x0, 0x0⟩,
   ⟨0x200, 16, 4, 0x0, 0x0, 0x0, 0x0, 0x0, 0x0, 0x0⟩,
   ⟨0x240, 45, 4, 0x0, 0x0, 0x0, 0x0, 0x0, 0x0, 0x0⟩,
   ⟨0x300, 22, 4, 0x0, 0x0, 0x0, 0x0, 0x0, 0x0, 0x0⟩]

/-- Rows of the PMB_ registers, block 0x5B (15). -/
def pmbRows : List Row :=
  [⟨0x0, 1, 0, 0x1A, 0x0, 0x0, 0x0, 0x1C, 0x0, 0x0⟩,
   ⟨0x4, 1, 0, 0x0, 0x0, 0x0, 0x0, 0x1FF7F, 0x0, 0x0⟩,
   ⟨0x8, 1, 0, 0x0, 0x0, 0x0, 0x0, 0x1FF7F, 0x0, 0x0⟩,
   ⟨0xC, 1, 0, 0x0, 0x0, 0x0, 0x0, 0x0, 0x0, 0x0⟩,
   ⟨0x10, 1, 0, 0x0, 0x0, 0x0, 0x0, 0x0, 0x0, 0x0⟩,
   ⟨0x14, 1, 0, 0x0, 0x0, 0x78, 0x0, 0x0, 0x0, 0x0⟩,
   ⟨0x20, 1, 0, 0x0, 0x0, 0x0, 0x0, 0x0, 0x0, 0x0⟩,
   ⟨0x24, 1, 0, 0x0, 0xFFFFFFFF, 0x0, 0x0, 0x0, 0x0, 0x0⟩,
   ⟨0x28, 1, 0, 0x0, 0xFFFFFFFF, 0x0, 0x0, 0x0, 0x0, 0x0⟩,
   ⟨0xF0, 1, 0, 0x0, 0x0, 0x0, 0x1, 0x0, 0x0, 0x0⟩]

/-- Rows of the RST_ registers, block 0x01 (16). -/
def rstRows : List Row :=
  [⟨0x0, 1, 0, 0x1, 0x0, 0x0, 0x0, 0x0, 0x0, 0x0⟩,
   ⟨0x4, 1, 0, 0x2, 0x0, 0x0, 0x0, 0x0, 0x0, 0x0⟩,
   ⟨0x8, 1, 0, 0x0, 0x0, 0x0, 0x0, 0x0, 0x0, 0x0⟩,
   ⟨0xC, 1, 0, 0x0, 0x1, 0x0, 0x0, 0x0, 0x0, 0x0⟩,
   ⟨0x10, 1, 0, 0x0, 0x0, 0x0, 0x0, 0x0, 0x0, 0x0⟩,
   ⟨0x14, 1, 0, 0x0, 0x0, 0x1, 0x0, 0x0, 0x0, 0x0⟩,
   ⟨0x18, 1, 0, 0x0, 0x0, 0x3F0, 0x0, 0x0, 0x0, 0x0⟩,
   ⟨0x1C, 1, 0, 0x0, 0x3F0, 0x0, 0x0, 0x0, 0x0, 0x0⟩,
   ⟨0x20, 4, 4, 0x0, 0x0, 0x0, 0xFFFFFFFF, 0x0, 0x0, 0x0⟩,
   ⟨0x30, 1, 0, 0x0, 0x0, 0x0, 0x0, 0x0, 0x0, 0x0⟩,
   ⟨0x34, 1, 0, 0x0, 0x0, 0x0, 0x0, 0x0, 0x0, 0x0⟩,
   ⟨0x40, 1, 0, 0x2C9649, 0x0, 0x0, 0x0, 0x0, 0x0, 0x0⟩,
   ⟨0x48, 1, 0, 0x10, 0x0, 0x0, 0x0, 0x0, 0x0, 0x0⟩,
   ⟨0x50, 1, 0, 0x7D0, 0x0, 0x0, 0x0, 0xFFFF, 0x0, 0x0⟩,
   ⟨0x54, 1, 0, 0x0, 0x0, 0x0, 0x0, 0x0, 0x0, 0x0⟩,
   ⟨0x58, 1, 0, 0x0, 0x0, 0x0, 0x0, 0x0, 0x1FFFF, 0x0⟩,
   ⟨0x5C, 1, 0, 0x0, 0x0, 0x0, 0x0, 0x0, 0x0, 0x0⟩,
   ⟨0xF0, 1, 0, 0x0, 0x0, 0x0, 0x1, 0x0, 0x0, 0x0⟩]

/-- Rows of the CLK_ registers, block 0x02 (16). -/
def clkRows : List Row :=
  [⟨0x0, 1, 0, 0x0, 0x0, 0x0, 0x0, 0x0, 0x0, 0x0⟩,
   ⟨0x4, 1, 0, 0x0, 0x0, 0x0, 0x0, 0x0, 0x0, 0x0⟩,
   ⟨0x8, 1, 0, 0x0, 0x0, 0x3FF, 0x0, 0x0, 0x0, 0x0⟩,
   ⟨0xC, 1, 0, 0x0, 0x3FF, 0x0, 0x0, 0x0, 0x0, 0x0⟩,
   ⟨0x10, 4, 4, 0x0, 0x0, 0x0, 0x0, 0x0, 0x0, 0x0⟩,
   ⟨0x20, 1, 0, 0x0, 0xFFFF, 0x0, 0x0, 0x0, 0x0, 0x0⟩,
   ⟨0x24, 1, 0, 0x0, 0x0, 0x0, 0x0, 0x0, 0x0, 0x0⟩]

/-- Rows of the SEC_ registers, block 0x06 (17). -/
def secRows : List Row :=
  [⟨0x0, 1, 0, 0x0, 0x0, 0xE, 0x0, 0x0, 0x0, 0x0⟩,
   ⟨0x4, 1, 0, 0x0, 0x0, 0x0, 0x0, 0x0, 0x0, 0x0⟩,
   ⟨0x8, 1, 0, 0x0, 0x0, 0x0, 0x0, 0x0, 0x0, 0x0⟩,
   ⟨0xC, 1, 0, 0x0, 0x0, 0x0, 0x0, 0x0, 0x0, 0x0⟩,
   ⟨0x10, 1, 0, 0x0, 0x0, 0x0, 0x0, 0x0, 0x0, 0x0⟩,
   ⟨0x14, 1, 0, 0x0, 0x0, 0x0, 0x0, 0x0, 0x0, 0x0⟩,
   ⟨0x18, 1, 0, 0x0, 0x0, 0x10, 0x3, 0x0, 0x0, 0x0⟩,
   ⟨0x1C, 1, 0, 0x0, 0x0, 0x0, 0x0, 0x0, 0x0, 0x0⟩,
   ⟨0x20, 1, 0, 0x0, 0x0, 0x0, 0x0, 0x0, 0x0, 0x0⟩,
   ⟨0x24, 1, 0, 0x0, 0xFFFFFFC0, 0x0, 0x0, 0x0, 0x0, 0x0⟩,
   ⟨0x28, 1, 0, 0x0, 0xFF, 0x0, 0x0, 0x0, 0x0, 0x0⟩,
   ⟨0x40, 12, 4, 0x0, 0x0, 0x0, 0x0, 0x0, 0x0, 0x0⟩,
   ⟨0x80, 12, 4, 0x0, 0x0, 0x0, 0x0, 0x0, 0x0, 0x0⟩,
   ⟨0x100, 128, 4, 0x0, 0x0, 0x0, 0x0, 0x0, 0x0, 0x0⟩,
   ⟨0x300, 24, 4, 0x0, 0x0, 0x0, 0x0, 0x0, 0x0, 0x0⟩,
   ⟨0x400, 8, 4, 0x0, 0xFFFFFFFF, 0x0, 0x0, 0x0, 0x0, 0x0⟩]

/-- Rows of the FUSE_ registers, block 0x04 (17). -/
def fuseRows : List Row :=
  [⟨0x0, 1, 0, 0x2, 0x0, 0x0, 0x0, 0x0, 0x0, 0x0⟩,
   ⟨0x4, 1, 0, 0x8CA8D1, 0x0, 0x0, 0x0, 0x0, 0x0, 0x0⟩,
   ⟨0x8, 1, 0, 0xC08B, 0x0, 0x0, 0x0, 0x0, 0x0, 0x0⟩,
   ⟨0xC, 1, 0, 0x0, 0x0, 0x0, 0x0, 0x0, 0x0, 0x0⟩,
   ⟨0x10, 1, 0, 0x0, 0x0, 0x0, 0x0, 0x0, 0x0, 0x0⟩,
   ⟨0x14, 1, 0, 0x0, 0x0, 0x6, 0x0, 0x0, 0x0, 0x0⟩,
   ⟨0x18, 1, 0, 0x0, 0x0, 0x0, 0x1, 0x0, 0x0, 0x0⟩,
   ⟨0x100, 60, 4, 0x0, 0x0, 0x0, 0x0, 0x0, 0x0, 0x0⟩,
   ⟨0x200, 64, 4, 0x0, 0x0, 0x0, 0x0, 0x0, 0x0, 0x0⟩]

/-- Rows of the NVM_ registers, block 0x05 (18). -/
def nvmRows : List Row :=
  [⟨0x0, 1, 0, 0x0, 0x0, 0x6, 0x0, 0x0, 0x0, 0x0⟩,
   ⟨0x4, 1, 0, 0x0, 0x7FFFFC, 0x0, 0x0, 0x0, 0x0, 0x0⟩,
   ⟨0x8, 1, 0, 0x0, 0x0, 0x0, 0x0, 0x0, 0x0, 0x0⟩,
   ⟨0x10, 1, 0, 0x0, 0x0, 0x0, 0x0, 0x0, 0x0, 0xFFFFFFFF⟩,
   ⟨0x100, 64, 4, 0x0, 0xFFFFFFFF, 0x0, 0x0, 0x0, 0x0, 0x0⟩]

/-- Rows of the MNET_ registers, block 0x32 (18). -/
def mnetRows : List Row :=
  [⟨0x0, 1, 0, 0x0, 0x7, 0x0, 0x0, 0x0, 0x0, 0x0⟩,
   ⟨0x4, 1, 0, 0x0, 0x0, 0x0, 0x0, 0x0, 0x0, 0x0⟩,
   ⟨0x8, 1, 0, 0x0, 0xFFFFFFFF, 0x0, 0x0, 0x0, 0x0, 0x0⟩,
   ⟨0xC, 1, 0, 0x0, 0xFFFF, 0x0, 0x0, 0x0, 0x0, 0x0⟩,
   ⟨0x10, 1, 0, 0x0, 0xFFFFFFFF, 0x0, 0x0, 0x0, 0x0, 0x0⟩,
   ⟨0x14, 1, 0, 0x0, 0xFFFFFFFF, 0x0, 0x0, 0x0, 0x0, 0x0⟩,
   ⟨0x20, 1, 0, 0x0, 0xFFFFF000, 0x0, 0x0, 0x0, 0x0, 0x0⟩,
   ⟨0x24, 1, 0, 0x0, 0xFF, 0x0, 0x0, 0x0, 0x0, 0x0⟩,
   ⟨0x28, 1, 0, 0x0, 0xFFFFF000, 0x0, 0x0, 0x0, 0x0, 0x0⟩,
   ⟨0x2C, 1, 0, 0x0, 0xFF, 0x0, 0x0, 0x0, 0x0, 0x0⟩,
   ⟨0x30, 1, 0, 0x0, 0x3FF, 0x0, 0x0, 0x0, 0x0, 0x0⟩,
   ⟨0x34, 1, 0, 0x0, 0x3FF, 0x0, 0x0, 0x0, 0x0, 0x0⟩,
   ⟨0x38, 1, 0, 0x0, 0x0, 0x0, 0x0, 0x0, 0x0, 0x0⟩,
   ⟨0x3C, 1, 0, 0x0, 0x0, 0x0, 0x0, 0x0, 0x0, 0x0⟩,
   ⟨0x40, 1, 0, 0x0, 0x3FF, 0x0, 0x0, 0x0, 0x0, 0x0⟩,
   ⟨0x60, 1, 0, 0x0, 0x0, 0x0, 0x0, 0x0, 0x0, 0x0⟩,
   ⟨0x64, 1, 0, 0x0, 0xFFFF, 0x0, 0x0, 0x0, 0x0, 0x0⟩,
   ⟨0x68, 1, 0, 0x0, 0x0, 0x6, 0x0, 0x0, 0x0, 0x0⟩,
   ⟨0x80, 1, 0, 0x0, 0x0, 0x0, 0x0, 0x0, 0x0, 0xFFFFFFFF⟩,
   ⟨0x84, 1, 0, 0x0, 0x0, 0x0, 0x0, 0x0, 0x0, 0xFFFFFFFF⟩,
   ⟨0x88, 1, 0, 0x0, 0x0, 0x0, 0x0, 0x0, 0x0, 0xFFFFFFFF⟩,
   ⟨0x8C, 1, 0, 0x0, 0x0, 0x0, 0x0, 0x0, 0x0, 0xFFFFFFFF⟩]

/-- Rows of the HCX_ registers, block 0x50 (19). -/
def hcxRows : List Row :=
  [⟨0x0, 1, 0, 0x0, 0xFF, 0x0, 0x0, 0x0, 0x0, 0x0⟩,
   ⟨0x4, 1, 0, 0x0, 0xFFFFFFFC, 0x0, 0x0, 0x0, 0x0, 0x0⟩,
   ⟨0x8, 1, 0, 0x0, 0xFF, 0x0, 0x0, 0x0, 0x0, 0x0⟩,
   ⟨0xC, 1, 0, 0x0, 0x0, 0x1, 0x0, 0x0, 0x0, 0x0⟩,
   ⟨0x10, 1, 0, 0x0, 0x0, 0x0, 0x0, 0x0, 0x0, 0x0⟩,
   ⟨0x14, 1, 0, 0x0, 0x0, 0x0, 0x0, 0x0, 0x0, 0x0⟩,
   ⟨0x18, 1, 0, 0x0, 0x7F, 0x0, 0x0, 0x0, 0x0, 0x0⟩,
   ⟨0x100, 64, 4, 0x100, 0x3F01FF, 0x0, 0x0, 0x0, 0x0, 0x0⟩,
   ⟨0x200, 8, 4, 0x0, 0x0, 0x0, 0x0, 0x0, 0x0, 0x0⟩]

/-- Rows of the PCIE_ registers, block 0x38 (19). -/
def pcieRows : List Row :=
  [⟨0x0, 1, 0, 0x0, 0x0, 0x0, 0x0, 0x0, 0x0, 0x0⟩,
   ⟨0x4, 1, 0, 0x2C, 0x0, 0x0, 0x0, 0x3F, 0x0, 0x0⟩,
   ⟨0x8, 1, 0, 0x0, 0x0, 0x7, 0x0, 0x0, 0x0, 0x0⟩,
   ⟨0xC, 1, 0, 0x0, 0x0, 0x0, 0x0, 0x0, 0x0, 0xFFFFFFFF⟩,
   ⟨0x10, 4, 8, 0x0, 0xFFF00000, 0x0, 0x0, 0x0, 0x0, 0x0⟩,
   ⟨0x14, 4, 8, 0x0, 0xFF, 0x0, 0x0, 0x0, 0x0, 0x0⟩,
   ⟨0x30, 1, 0, 0x600000, 0xFFF00000, 0x0, 0x0, 0x0, 0x0, 0x0⟩,
   ⟨0x34, 1, 0, 0x12, 0xFF, 0x0, 0x0, 0x0, 0x0, 0x0⟩,
   ⟨0x40, 1, 0, 0x0, 0x0, 0xFFFFFFFF, 0x0, 0x0, 0x0, 0x0⟩,
   ⟨0x44, 1, 0, 0x0, 0x0, 0x0, 0x0, 0x0, 0x0, 0x0⟩,
   ⟨0x48, 1, 0, 0x0, 0x0, 0xFFFFFFFF, 0x0, 0x0, 0x0, 0x0⟩,
   ⟨0x4C, 1, 0, 0x0, 0x0, 0x0, 0x0, 0x0, 0x0, 0x0⟩,
   ⟨0x50, 1, 0, 0x0, 0x0, 0x0, 0x0, 0x0, 0x0, 0x0⟩,
   ⟨0xF0, 1, 0, 0x0, 0x0, 0x0, 0x1, 0x0, 0x0, 0x0⟩,
   ⟨0x8000, 32, 16, 0x0, 0xFFFFFFFF, 0x0, 0x0, 0x0, 0x0, 0x0⟩,
   ⟨0x8004, 32, 16, 0x0, 0xFFFFFFFF, 0x0, 0x0, 0x0, 0x0, 0x0⟩,
   ⟨0x8008, 32, 16, 0x0, 0xFFFFFFFF, 0x0, 0x0, 0x0, 0x0, 0x0⟩,
   ⟨0x800C, 32, 16, 0x1, 0x1, 0x0, 0x0, 0x0, 0x0, 0x0⟩,
   ⟨0x9000, 1, 0, 0x0, 0x0, 0x0, 0x0, 0x0, 0x0, 0x0⟩]

/-- Rows of the RING_ interrupt registers, block 0x41 (19). -/
def ringRows : List Row :=
  [⟨0x0, 1, 0, 0x0, 0x0, 0xFFFFFFFF, 0x0, 0x0, 0x0, 0x0⟩,
   ⟨0x4, 1, 0, 0x0, 0x0, 0xFFFFFFFF, 0x0, 0x0, 0x0, 0x0⟩,
   ⟨0x8, 1, 0, 0x0, 0x0, 0x1, 0x0, 0x0, 0x0, 0x0⟩,
   ⟨0x10, 3, 4, 0x0, 0xFFFFFFFF, 0x0, 0x0, 0x0, 0x0, 0x0⟩]

/-- Rows of the STW_ registers, block 0x51 (19). -/
def stwRows : List Row :=
  [⟨0x0, 1, 0, 0x0, 0x1, 0x0, 0x0, 0x0, 0x0, 0x0⟩,
   ⟨0x4, 1, 0, 0x0, 0x0, 0x4, 0x0, 0x0, 0x0, 0x0⟩,
   ⟨0x8, 1, 0, 0x0, 0x0, 0x0, 0x0, 0x0, 0x0, 0x0⟩,
   ⟨0xC, 1, 0, 0x0, 0x0, 0x0, 0x0, 0x0, 0x0, 0x0⟩,
   ⟨0x400, 260, 4, 0x0, 0x0, 0x0, 0x0, 0x0, 0x0, 0x0⟩,
   ⟨0x1000, 260, 4, 0x0, 0x0, 0x0, 0x0, 0x0, 0x0, 0x0⟩]

/-- Rows of the GPIO_ registers, block 0x58 (20). -/
def gpioRows : List Row :=
  [⟨0x0, 1, 0, 0x0, 0x0, 0x0, 0x0, 0x0, 0x0, 0x0⟩,
   ⟨0x4, 1, 0, 0x0, 0xFFFFFFFF, 0x0, 0x0, 0x0, 0x0, 0x0⟩,
   ⟨0x8, 1, 0, 0x0, 0x0, 0x0, 0x0, 0x0, 0x0, 0x0⟩,
   ⟨0xC, 1, 0, 0x0, 0x0, 0x0, 0x0, 0x0, 0x0, 0x0⟩,
   ⟨0x10, 1, 0, 0x0, 0xFFFFFFFF, 0x0, 0x0, 0x0, 0x0, 0x0⟩,
   ⟨0x14, 1, 0, 0x0, 0xFFFFFFFF, 0x0, 0x0, 0x0, 0x0, 0x0⟩,
   ⟨0x18, 1, 0, 0x0, 0xFFFFFFFF, 0x0, 0x0, 0x0, 0x0, 0x0⟩,
   ⟨0x1C, 1, 0, 0x0, 0xFFFFFFFF, 0x0, 0x0, 0x0, 0x0, 0x0⟩,
   ⟨0x20, 1, 0, 0x0, 0xFFFFFFFF, 0x0, 0x0, 0x0, 0x0, 0x0⟩,
   ⟨0x24, 1, 0, 0x0, 0xFFFFFFFF, 0x0, 0x0, 0x0, 0x0, 0x0⟩,
   ⟨0x28, 1, 0, 0x0, 0x0, 0xFFFFFFFF, 0x0, 0x0, 0x0, 0x0⟩,
   ⟨0x2C, 1, 0, 0x0, 0xFFFFFFFF, 0x0, 0x0, 0x0, 0x0, 0x0⟩]

/-- Rows of the registers of one ring (19). -/
def ringnRows : List Row :=
  [⟨0x0, 1, 0, 0x0, 0x0, 0x0, 0x0, 0x0, 0x0, 0x0⟩,
   ⟨0x4, 1, 0, 0x0, 0x0, 0x0, 0x0, 0x0, 0x0, 0x0⟩,
   ⟨0x8, 1, 0, 0x0, 0x0, 0x0, 0x0, 0x0, 0x0, 0x0⟩,
   ⟨0xC, 1, 0, 0x0, 0x0, 0x0, 0x0, 0x0, 0x0, 0x0⟩,
   ⟨0x10, 1, 0, 0x0, 0xFFFFFFFF, 0x0, 0x0, 0x0, 0x0, 0x0⟩,
   ⟨0x14, 1, 0, 0x0, 0x801FFFFF, 0x0, 0x0, 0x0, 0x0, 0x0⟩,
   ⟨0x18, 1, 0, 0x0, 0x0, 0x6, 0x0, 0x0, 0x0, 0x0⟩,
   ⟨0x1C, 1, 0, 0x0, 0x0, 0x0, 0x0, 0x0, 0x0, 0x0⟩]

/-- The row that covers offset o. -/
def findRow (o : Nat) : List Row → Option Row
  | [] => none
  | r :: t =>
    if r.off ≤ o ∧ (if r.stride = 0 then o = r.off else (o - r.off) % r.stride = 0 ∧ (o - r.off) / r.stride < r.cnt) then
      some r
    else findRow o t

/-- The rows of I/O die block b and the offset at which a register of the block is looked up (R33). -/
def blockRow (b o : Nat) : Option Row :=
  match b with
  | 0x00 => findRow o sysRows
  | 0x01 => findRow o rstRows
  | 0x02 => findRow o clkRows
  | 0x03 => findRow o pwrRows
  | 0x04 => findRow o fuseRows
  | 0x05 => findRow o nvmRows
  | 0x06 => findRow o secRows
  | 0x08 => findRow o dmcRows
  | 0x20 => findRow o vdecRows
  | 0x21 => findRow o vencRows
  | 0x22 => findRow o vencRows
  | 0x2C => if 0x400 ≤ o ∧ o < 0x600 then findRow (o % 0x80) ispctxRows else findRow o ispRows
  | 0x30 => findRow o netRows
  | 0x31 => if o < 0x200 then findRow o netRows else none
  | 0x32 => findRow o mnetRows
  | 0x33 => findRow o tbsRows
  | 0x38 => findRow o pcieRows
  | 0x40 => if 0x400 ≤ o ∧ o < 0x800 then findRow (o % 0x40) jqRows else findRow o wvRows
  | 0x41 => if (0x100 ≤ o ∧ o < 0x920) then findRow (o % 0x20) ringnRows else findRow o ringRows
  | 0x48 => findRow o scrbRows
  | 0x49 => findRow o rasRows
  | 0x50 => findRow o hcxRows
  | 0x51 => findRow o stwRows
  | 0x58 => findRow o gpioRows
  | 0x5B => findRow o pmbRows
  | b => if 0x09 ≤ b ∧ b ≤ 0x18 then findRow o dchRows
         else if 0x28 ≤ b ∧ b ≤ 0x2B then findRow o pixRows
         else none

/-- Block numbers of *Table — I/O die blocks*; any other number is unassigned (R33). -/
def blockAssigned (b : Nat) : Bool :=
  b ≤ 0x06 || (0x08 ≤ b && b ≤ 0x18) || (0x20 ≤ b && b ≤ 0x22) || (0x28 ≤ b && b ≤ 0x2C) || (0x30 ≤ b && b ≤ 0x33) ||
  b == 0x38 || b == 0x40 || b == 0x41 || b == 0x48 || b == 0x49 || b == 0x50 || b == 0x51 ||
  (0x58 ≤ b && b ≤ 0x5B)

/-- The row of the register at device address a, none where no listed register stands (R13). -/
def rowOf (a : Nat) : Option Row :=
  if 0x1200000000 ≤ a ∧ a < 0x1210000000 then
    blockRow ((a - 0x1200000000) / 0x100000) ((a - 0x1200000000) % 0x100000)
  else if 0x1000000000 ≤ a ∧ a < 0x1090000000 then
    (if 0x1000000 ≤ (a - 0x1000000000) % 0x2000000 then
      findRow ((a - 0x1000000000) % 0x2000000 - 0x1000000) coreRows
    else none)
  else if 0x10C0000000 ≤ a ∧ a < 0x10C0800000 then
    findRow ((a - 0x10C0000000) % 0x100000) cluRows
  else none

/-- Physical core number of a core-register address. -/
abbrev coreOfReg (a : Nat) : Nat := (a - 0x1000000000) / 0x2000000

/-- Fused coefficients of the estimator events, 12.4 pJ, the last in mW: the typical values (Table, Estimator events). -/
def typicalCoef : List Nat := [2130, 320, 7680, 160, 384, 96, 24, 128, 1600, 144, 48, 6560, 25600, 320, 960, 3200]

/-- Fused voltages of the eleven steps, mV: the typical values (Table, Typical voltage and frequency table). -/
def typicalVolts : List Nat := [620, 635, 655, 670, 685, 705, 720, 740, 760, 780, 800]

/-- The value of a register that nothing has written since the reset that clears its block (R19). Fused power tables hold their
typical values. CORE_ID is fixed by the
position of the core; CLU_ROLEi maps to slot i, valid, epoch 0 (R26); slot 8 of a cluster is SPARE and the other slots are
PARKED (R219); gamma entry i is 8i (12). -/
def resetValue (a : Nat) : Word :=
  if 0x10C0000000 ≤ a ∧ a < 0x10C0800000 ∧ 0x10 ≤ (a - 0x10C0000000) % 0x100000 ∧ (a - 0x10C0000000) % 0x100000 < 0x30 then
    BitVec.ofNat 32 (0x10000 + ((a - 0x10C0000000) % 0x100000 - 0x10) / 4)
  else if 0x1000000000 ≤ a ∧ a < 0x1090000000 ∧ (a - 0x1000000000) % 0x2000000 = 0x1000000 then
    BitVec.ofNat 32 (coreOfReg a + (coreOfReg a % 9) * 0x100 + (coreOfReg a / 9) * 0x1000)
  else if 0x1000000000 ≤ a ∧ a < 0x1090000000 ∧ (a - 0x1000000000) % 0x2000000 = 0x1000004 then
    (if coreOfReg a % 9 = 8 then 4 else 0)
  else if blk 0x03 + 0x200 ≤ a ∧ a < blk 0x03 + 0x240 then BitVec.ofNat 32 (typicalCoef.getD ((a - (blk 0x03 + 0x200)) / 4) 0)
  else if blk 0x03 + 0x300 ≤ a ∧ a < blk 0x03 + 0x358 then BitVec.ofNat 32 (typicalVolts.getD ((a - (blk 0x03 + 0x300)) / 4 % 11) 0)
  else if blk 0x2C + 0x14000 ≤ a ∧ a < blk 0x2C + 0x15000 then
    BitVec.ofNat 32 (8 * ((a - (blk 0x2C + 0x14000)) % 0x400 / 4))
  else
    match rowOf a with
    | some r => BitVec.ofNat 32 r.rst
    | none => 0

end Sys2Proof.Reg
end

