-- ==== Sys2Proof/Machine/SysTypes.lean ====
section
/-! DEFINITION. The data of power control (15), resets (16), boot and security (17), the object dictionary (18), the host
interfaces (19) and the GPIO (20). Plain data. -/

namespace Sys2Proof.Machine

/-! ### Power (15) -/

/-- A compute die's supply and clock (R394, R395, R399): the step aimed at, the voltage of the transaction in flight, whether the
rail was declared faulty, the times of the last step change and of the last thermal step, and missing poll answers in a row. -/
structure Rail where
  goal : Nat
  sending : Option Nat
  faulty : Bool
  changed : Option Nat
  thermal : Option Nat
  missed : Nat
  deriving DecidableEq, Repr

/-- A rail after reset. -/
def Rail.init : Rail := { goal := 0, sending := none, faulty := false, changed := none, thermal := none, missed := 0 }

/-- The power controller: what the PWR_ and PMB_ registers do not hold. Units are clusters 0 to 7, physical cores p as 8 + p,
and decode cores d as 80 + d (R407). -/
structure PowerSt where
  awake : List Nat
  queue : List Nat
  waking : List Nat
  /-- averages with 8 fraction bits, mW (R392) -/
  avgF : Nat
  avgS : Nat
  /-- profile whose limits are in force (R388) -/
  profile : Nat
  /-- time at which the package loose limit last changed (R393, R394) -/
  kSince : Nat
  /-- start of the episode above the profile at the floor, and its milliseconds counted (R390) -/
  overSince : Option Nat
  overMs : Nat
  rails : Tbl Rail
  /-- fixed-frequency mode, and its step, as the last evaluation took them (R396) -/
  fixedIn : Option Nat
  /-- start of the thermal emergency (R404) -/
  emergency : Option Nat
  /-- sensors whose last conversion made them invalid (R400) -/
  badSensors : List Nat
  /-- gradient alarms: hotter cluster and neighbour (R402) -/
  grads : List (Nat × Nat)
  /-- seconds in a row without a tachometer pulse at 30 % duty or more (R406) -/
  fanZero : Nat
  /-- mailbox transaction in flight: its control word (R408) -/
  mbx : Option Nat
  deriving DecidableEq, Repr

/-- The power controller after reset: every unit gated. -/
def PowerSt.init : PowerSt :=
  { awake := [], queue := [], waking := [], avgF := 0, avgS := 0, profile := 60, kSince := 0, overSince := none, overMs := 0, rails := [],
    fixedIn := none, emergency := none, badSensors := [], grads := [], fanZero := 0, mbx := none }

/-! ### Resets (16) -/

/-- Where a reset stands: none in progress; its stretch has not begun because a comparator is still tripped, or is running;
the pin is held low beyond the stretch; the release steps are still to be made. -/
inductive ResetPhase where
  | none
  | stretch
  | held
  | release
  deriving DecidableEq, Repr

/-- Resets: what the RST_ registers do not hold. L3 targets are the bits of R417, and 128 + p for a core (R419). Watchdog counts
are in picks since the last kick. -/
structure ResetSt where
  phase : ResetPhase
  tripped : Bool
  pinLow : Bool
  perstLow : Bool
  l3 : List Nat
  swCount : Nat
  awCount : Nat
  /-- level that object 0x1F02 asked for, until its 100 ms have passed or the steward has served it (R474) -/
  dictLevel : Option Nat
  deriving DecidableEq, Repr

/-- After a power-on reset the release steps are still to be made. -/
def ResetSt.init : ResetSt :=
  { phase := .release, tripped := false, pinLow := false, perstLow := false, l3 := [], swCount := 0, awCount := 0, dictLevel := none }

/-! ### Boot and security (17) -/

/-- A boot in progress (R434): source codes still to be tried, the present one first; sources and slots tried; the manifest and
the blocks pushed over PCIe; whether every source has failed. -/
structure BootRun where
  sources : List Nat
  tried : Nat
  manifest : List Nat
  blocks : Nat
  failed : Bool
  deriving DecidableEq, Repr

/-- An image of a slot: its manifest and its payload. -/
structure FwImage where
  manifest : List Nat
  payload : List Nat
  deriving DecidableEq, Repr

/-- Boot and security: what the SEC_ and FUSE_ registers do not hold. -/
structure BootSt where
  run : Option BootRun
  /-- boot record in NVM: active slot (0 A, 1 B), pending slot, tries (R438) -/
  active : Nat
  pending : Option Nat
  tries : Nat
  /-- slots that the steward has written through the dictionary, by slot (R439) -/
  slots : Tbl (List Nat)
  /-- images still to be loaded by the steward after DRAM initialisation (R432), and whether the part booted a pending slot -/
  rest : Option (List FwImage)
  /-- manifest of the steward image in each half of the steward region (R433) -/
  half0 : List Nat
  half1 : List Nat
  /-- security versions of steward, threader, application-core and hedge image in force -/
  svns : List Nat
  /-- a live handover has occurred since the boot (R446); the handover in progress started from the pending slot -/
  handed : Bool
  /-- attestation request in progress, and the last report (R446) -/
  attesting : Bool
  report : Option (List Nat)
  /-- fuse bits by address: copies in which they are programmed since test (R448, R363) -/
  fuses : Tbl Nat
  fuseBusy : Option Nat
  deriving DecidableEq, Repr

/-- Boot and security before the first boot. -/
def BootSt.init : BootSt :=
  { run := none, active := 0, pending := none, tries := 0, slots := [], rest := none, half0 := [], half1 := [], svns := [0, 0, 0, 0],
    handed := false, attesting := false, report := none, fuses := [], fuseBusy := none }

/-! ### Object dictionary (18) -/

/-- A segmented transfer of a session (R460 to R462): request id, object, direction, the value read or the bytes received, the
total size, the last segment that was answered. -/
structure Transfer where
  req : Nat
  index : Nat
  sub : Nat
  write : Bool
  data : List Nat
  total : Nat
  seg : Nat
  deriving DecidableEq, Repr

/-- A subscription (R463, R464): least class, counters sent and not acknowledged, counter from which the next event is looked for,
repetitions without progress, whether the first EVENT, sent or not, has yet to be acknowledged and says that events were lost. -/
structure Subscription where
  cls : Nat
  open_ : List Nat
  from_ : Nat
  repeats : Nat
  lost : Bool
  deriving DecidableEq, Repr

/-- A session (R456, R458): responses held by request id and service, latest first; its transfers; its subscription; its read
index on ring 255 (object 0x3030). -/
structure Session where
  held : List ((Nat × Nat) × List Nat)
  xfers : List Transfer
  sub : Option Subscription
  ring : Nat
  deriving DecidableEq, Repr

/-- A session that has just been opened. -/
def Session.init : Session := { held := [], xfers := [], sub := none, ring := 0 }

/-- A stored-values record that waits to be written (R468, R469): its bytes, and whether it restores defaults. -/
structure StoreReq where
  record : List Nat
  defaults : Bool
  deriving DecidableEq, Repr

/-- The object dictionary service. Sessions 0 to 7 are network sessions, 8 is the mailbox session. -/
structure DictSt where
  sessions : Tbl (Option Session)
  /-- values in force of the objects that no register holds, by 256 × index + subindex -/
  vals : Tbl (Option (List Nat))
  stores : List StoreReq
  genInForce : Nat
  genWritten : Nat
  /-- slot of the newest complete copy in NVM, generation of the ONCE record, writes of each slot (R471, R472) -/
  slot : Nat
  onceGen : Nat
  writes : Tbl Nat
  /-- messages that the last command sent on the network: session and bytes -/
  sent : List (Nat × List Nat)
  deriving DecidableEq, Repr

/-- The dictionary after a first power-on. -/
def DictSt.init : DictSt :=
  { sessions := [], vals := [], stores := [], genInForce := 0, genWritten := 0, slot := 30, onceGen := 0, writes := [], sent := [] }

/-! ### Host interfaces, NVM writes, MDIO and GPIO (18, 19, 20) -/

/-- Vectors asserted when they were last looked at, messages sent since the last command began (address, data) (R485); messages
waiting for STW_RSP (R499); the NVM write in progress: offset and words (R479); the MDIO frame in progress (R480); levels that agents
outside drive on the GPIO, whether GPIO_DIR has been written since the reset, and the level of the PPS output (R514, R515). -/
structure PortSt where
  vectors : List Nat
  msi : List (Nat × Nat)
  rsp : List (List Nat)
  nvm : Option (Nat × List Nat)
  mdio : Option Nat
  gpioExt : Nat
  gpioFree : Bool
  pps : Bool
  deriving DecidableEq, Repr

/-- The host interfaces after reset. -/
def PortSt.init : PortSt :=
  { vectors := [], msi := [], rsp := [], nvm := none, mdio := none, gpioExt := 0, gpioFree := false, pps := false }

end Sys2Proof.Machine
end

