-- ==== Sys2Proof/Machine/State.lean ====
section
/-! DEFINITION. The state of the HV960, the reasons a command can stop, and the state after reset. -/

namespace Sys2Proof.Machine

/-- Reasons a command ends in a fault. No command of the HV960 faults in this model: the device answers wrong accesses with
bus errors, abort codes and sticky flags, which are next states. -/
inductive Fault where
  /-- Reserved: raised by no command. Safe. -/
  | none
  deriving DecidableEq, Repr

/-- Reasons a command is refused. -/
inductive Refusal where
  /-- Raised by the dispatch of a command that has no meaning yet. Safe: nothing is claimed of it. -/
  | notModelled (mnemonic : String)
  deriving DecidableEq, Repr

/-- What the last access gave its requester: nothing yet, read data, completion of a write, a bus error, a completion
with the poisoned bit, an abort code of the object dictionary, or a dropped message. -/
inductive Reply where
  | none
  | data (bytes : List Nat)
  | done
  | error
  | poisoned
  | abort (code : Nat)
  | dropped
  deriving DecidableEq, Repr

/-- The state of the HV960. regs is the home of every register of the register maps, by device address; mem is the home of
every byte of DRAM, core memories, system cache window, boot ROM and NVM by device address, and of the cluster caches
above the 40-bit space (assumption 4). -/
structure State where
  pending : List Instr
  freeCount : Nat
  /-- what the last access gave its requester: an observation of the model -/
  reply : Reply
  regs : Tbl Word
  /-- latched high words (R12), by 256 × register address + master -/
  pairs : Tbl (Option Word)
  /-- ONCE registers that have been written (R13) -/
  onceDone : Tbl Bool
  mem : List Host.Cell
  cores : Tbl Core
  /-- role-table invalidations sent to every core, applied at the next pick boundary (R179) -/
  roleInval : List Nat
  /-- parameter shadow and active sets (R220, R221), by 64 × owner + n: owner L below 64 is a role, 64 + p a core -/
  pshadow : Tbl Word
  pactive : Tbl Word
  /-- lines that read as uncorrectable, by line number (R335, R343, R359); an unlisted line of DRAM reads as dram.raw says -/
  badLines : Tbl Bool
  /-- lines held in the read caches, by 2^40 × cluster + line number (R161) -/
  ccache : Tbl (List Nat)
  /-- weight-store bytes written since the store's contents became undefined (R159) -/
  wsFilled : Tbl Bool
  /-- pushes on their way and stale-role notices on their way back, by sender (R181, R182) -/
  pushes : List Push
  notices : List Nat
  weave : WeaveSt
  /-- event counter (R80, R387) -/
  events : Nat
  /-- event history in NVM, newest first, at most 4,096 entries, and the entries written since manufacture (R462, R472) -/
  hist : List (List Nat)
  histCount : Nat
  jobs : JobsSt
  ingest : IngestSt
  vdec : VdecSt
  isp : IspSt
  dram : DramSt
  power : PowerSt
  rst : ResetSt
  boot : BootSt
  dict : DictSt
  host : PortSt
  /-- latched telemetry values (R475), by 256 × (index − 0x7000) + subindex -/
  telem : Tbl Nat
  /-- fifths of a nanosecond of a timebase step still to be absorbed (R44, R312) -/
  stepRest : Int
  deriving DecidableEq, Repr

/-- The state right after reset: every register at the reset value of its row, memory with nothing listed, nothing
waiting. -/
def State.reset : State :=
  { pending := [], freeCount := 0, reply := .none, regs := [], pairs := [], onceDone := [], mem := [], cores := [], roleInval := [], pshadow := [], pactive := [],
    badLines := [], ccache := [], wsFilled := [], pushes := [], notices := [], weave := WeaveSt.init, events := 0, hist := [], histCount := 0, jobs := JobsSt.init,
    ingest := IngestSt.init, vdec := VdecSt.init, isp := IspSt.init, dram := DramSt.init, power := PowerSt.init, rst := ResetSt.init,
    boot := BootSt.init, dict := DictSt.init, host := PortSt.init, telem := [], stepRest := 0 }

end Sys2Proof.Machine
end

