-- ==== Sys2Proof/Machine/Ops.lean ====
section
/-! DEFINITION. The named operations over registers, memory, the core table, the role table and the event log that every
command uses. -/

namespace Sys2Proof.Machine

/-! ### Bit fields -/

/-- Bits [lo + w − 1 : lo] of a number. -/
def field (v lo w : Nat) : Nat := v / 2 ^ lo % 2 ^ w

/-- v with bits [lo + w − 1 : lo] replaced by the low w bits of x. -/
def putField (v lo w x : Nat) : Nat := v - field v lo w * 2 ^ lo + (x % 2 ^ w) * 2 ^ lo

/-- Bit i of a number. -/
def nbit (v i : Nat) : Bool := v.testBit i

/-- The list of bit numbers below n that are set. -/
def setBits (v n : Nat) : List Nat := (List.range n).filter (fun i => v.testBit i)

/-! ### Registers (R11 to R19) -/

/-- The value a register holds. -/
def State.reg (s : State) (a : Nat) : Word := Tbl.get Reg.resetValue s.regs a

/-- Sets a register. -/
def State.setReg (s : State) (a : Nat) (v : Word) : State := { s with regs := Tbl.set Reg.resetValue s.regs a v }

/-- A register as a number. -/
def State.regN (s : State) (a : Nat) : Nat := (s.reg a).toNat

/-- Sets a register from a number. -/
def State.setRegN (s : State) (a v : Nat) : State := s.setReg a (BitVec.ofNat 32 v)

/-- Field [lo + w − 1 : lo] of a register. -/
def State.fld (s : State) (a lo w : Nat) : Nat := field (s.regN a) lo w

/-- Sets a field of a register. -/
def State.setFld (s : State) (a lo w v : Nat) : State := s.setRegN a (putField (s.regN a) lo w v)

/-- Bit i of a register. -/
def State.bit (s : State) (a i : Nat) : Bool := (s.regN a).testBit i

/-- Sets bit i of a register to b. -/
def State.putBit (s : State) (a i : Nat) (b : Bool) : State := s.setFld a i 1 (if b then 1 else 0)

/-- Sets bit i of a register (a sticky flag or an interrupt cause). -/
def State.sticky (s : State) (a i : Nat) : State := s.putBit a i true

/-- Sets bit i of a register when c holds. -/
def State.stickyIf (s : State) (c : Bool) (a i : Nat) : State := if c then s.sticky a i else s

/-- A 64-bit quantity in two consecutive registers (R12). -/
def State.reg64 (s : State) (a : Nat) : Nat := s.regN a + s.regN (a + 4) * 2 ^ 32

/-- Sets a 64-bit quantity. -/
def State.setReg64 (s : State) (a v : Nat) : State := (s.setRegN a (v % 2 ^ 32)).setRegN (a + 4) (v / 2 ^ 32 % 2 ^ 32)

/-- An event counter counts n events and saturates at all ones (R17). -/
def State.satAdd (s : State) (a n : Nat) : State := s.setRegN a (min (s.regN a + n) 0xFFFFFFFF)

/-- A counter field counts n events and saturates at its all-ones value (R17). -/
def State.satAddFld (s : State) (a lo w n : Nat) : State := s.setFld a lo w (min (s.fld a lo w + n) (2 ^ w - 1))

/-- A wrapping counter counts n events. -/
def State.wrapAdd (s : State) (a n : Nat) : State := s.setRegN a ((s.regN a + n) % 2 ^ 32)

/-- A wrapping 64-bit counter counts n events. -/
def State.wrapAdd64 (s : State) (a n : Nat) : State := s.setReg64 a ((s.reg64 a + n) % 2 ^ 64)

/-- Every register of an address range back at its reset value (R19). -/
def State.clearRegs (s : State) (lo hi : Nat) : State := { s with regs := Tbl.clear lo hi s.regs }

/-! ### Memory (R10, R28) -/

/-- What a byte that nothing has written reads as: 0 (assumption 4); the boot ROM reads as its contents. -/
def memDefault : Nat → BitVec 8 := fun a => if a < 0x1400000000 ∨ 0x1400040000 ≤ a then 0 else Config.bootRom (a - 0x1400000000)

/-- One byte of memory. -/
def State.byte (s : State) (a : Nat) : Nat := (Tbl.get memDefault s.mem a).toNat

/-- Writes one byte of memory. -/
def State.setByte (s : State) (a v : Nat) : State := { s with mem := Tbl.set memDefault s.mem a (BitVec.ofNat 8 v) }

/-- n bytes of memory from an address, in increasing address order. -/
def State.bytes (s : State) (a : Nat) : Nat → List Nat
  | 0 => []
  | n + 1 => s.byte a :: s.bytes (a + 1) n

/-- Writes bytes from an address. -/
def State.setBytes (s : State) (a : Nat) : List Nat → State
  | [] => s
  | b :: r => (s.setByte a b).setBytes (a + 1) r

/-- The little-endian value of bytes (R10). -/
def leVal : List Nat → Nat
  | [] => 0
  | b :: r => b + 256 * leVal r

/-- The n little-endian bytes of a value (R10). -/
def leBytes : Nat → Nat → List Nat
  | 0, _ => []
  | n + 1, v => v % 256 :: leBytes n (v / 256)

/-- The little-endian value of n bytes of memory. -/
def State.le (s : State) (a n : Nat) : Nat := leVal (s.bytes a n)

/-- Writes a value as n little-endian bytes. -/
def State.setLe (s : State) (a n v : Nat) : State := s.setBytes a (leBytes n v)

/-- Every byte of a range back at what an unlisted byte reads as. -/
def State.clearMem (s : State) (lo hi : Nat) : State := { s with mem := Tbl.clear lo hi s.mem }

/-- The memory is in canonical form: addresses strictly rising, no byte listed at its default. -/
def Memory.wf (m : List Host.Cell) : Bool := Tbl.wf memDefault m

/-! ### Free values -/

/-- The next free value: the value of the specification's undefined or unstated w-bit result (assumption 2). -/
def State.free (s : State) (w : Nat) : Nat × State :=
  ((Config.freeBits s.freeCount).toNat % 2 ^ w, { s with freeCount := s.freeCount + 1 })

/-! ### Address map -/

/-- Cluster windows of the map of chapter 00: physical core p of slot s in cluster g. -/
def physCore (g slot : Nat) : Nat := 9 * g + slot

/-- First address of core p's window. -/
abbrev coreBase (p : Nat) : Nat := Reg.coreWin p

/-- First address of logical core L's alias window (R28). -/
def aliasBase (l : Nat) : Nat := 0x1100000000 + l * 0x2000000

/-- Offset of the accumulators in a core window (R87). -/
def accOff : Nat := 0x800000

/-- Offset of the program memory in a core window (R28). -/
def progOff : Nat := 0xC00000

/-- Home of the cluster cache of cluster g in mem, above the 40-bit device space: carry shadows in the first 2 MiB,
native programs in the next 1 MiB, the weight store from 3 MiB (R158). -/
def cacheBase (g : Nat) : Nat := 2 ^ 40 + g * 0x800000

/-- Home of the carry shadow of logical core L (R158). -/
def shadowBase (l : Nat) : Nat := cacheBase (l / 8) + (l % 8) * 0x40000

/-- Home of the weight store of cluster g. -/
def weightBase (g : Nat) : Nat := cacheBase g + 0x300000

/-- The HV480-C has half the clusters (R5, SYS_PARTID.part). -/
def State.isHV480 (s : State) : Bool := s.fld Reg.SYS_PARTID 0 16 == 0x480

/-- Clusters of the part (R20). -/
def State.clusters (s : State) : Nat := if s.isHV480 then 4 else 8

/-- Usable DRAM bytes (R30, R334): DMC_CAP.mib MiB. -/
def State.dramBytes (s : State) : Nat := s.fld Reg.DMC_CAP 0 16 * 2 ^ 20

/-- Ways of the system cache that the repair log in force excludes (Table, Retirement when spares are exhausted). -/
def State.lostWays (s : State) : List Nat := ((s.dram.applied.filter (fun e => e.kind == 5)).map (fun e => e.unit)).dedup

/-- Bytes of the system cache window (R166): an excluded way of the window takes 2 MiB from its end. -/
def State.windowBytes (s : State) : Nat :=
  let n := s.fld Reg.SYS_SC_WINDOW 0 5
  (n - (s.lostWays.filter (fun w => decide (16 - n ≤ w) && decide (w < 16))).length) * 0x200000

/-- Ways of cluster g's cache that the weight store and the read cache share: ten, less those that the repair log in force
retires (R159). -/
def State.cacheWays (s : State) (g : Nat) : Nat := 10 - (s.dram.applied.filter (fun e => e.kind == 6 && e.unit == g)).length

/-- Slot of the role-table entry of logical core L, none for 0xF (R31, R228). -/
def State.roleSlot (s : State) (l : Nat) : Option Nat :=
  let v := s.regN (Reg.CLU_ROLE (l / 8) (l % 8))
  if v % 16 ≤ 8 then some (v % 16) else none

/-- Epoch of the role-table entry of logical core L (R27). -/
def State.roleEpoch (s : State) (l : Nat) : Nat := s.fld (Reg.CLU_ROLE (l / 8) (l % 8)) 8 8

/-- The physical core that holds logical core L, if any (R25). -/
def State.physOf (s : State) (l : Nat) : Option Nat := (s.roleSlot l).map (physCore (l / 8))

/-- The logical core that physical core p serves, if any. -/
def State.roleOf (s : State) (p : Nat) : Option Nat :=
  ((List.range 8).map (fun i => 8 * (p / 9) + i)).find? (fun l => s.physOf l == some p)

/-- The part of a core window that an access of n bytes at offset o lies in: scratchpad, accumulators, program memory or
registers (R29). -/
inductive WinPart where
  | scratch
  | acc
  | prog
  | regs
  deriving DecidableEq, Repr

/-- The range of a core window that holds n bytes at offset o, none where no listed range holds them all (R29). -/
def winPart (o n : Nat) : Option WinPart :=
  if o + n ≤ 0x200000 then some .scratch
  else if 0x800000 ≤ o ∧ o + n ≤ 0x840000 then some .acc
  else if 0xC00000 ≤ o ∧ o + n ≤ 0xC40000 then some .prog
  else if 0x1000000 ≤ o ∧ o + n ≤ 0x1100000 then some .regs
  else none

/-- Where an access lands: a register, a core memory of core p, DRAM, the window, the boot ROM, the NVM read window, or a
bus error. The address is the physical one, alias windows decoded (R31). -/
inductive Place where
  | reg (a : Nat)
  | core (p : Nat) (part : WinPart) (a : Nat)
  | dram (a : Nat)
  | window (a : Nat)
  | rom (a : Nat)
  | nvm (a : Nat)
  | err
  deriving DecidableEq, Repr

/-- Decodes an access of n bytes at device address a as a whole (R5, R28 to R31, R33, R166). -/
def State.place (s : State) (a n : Nat) : Place :=
  if a < 0x1000000000 then (if a + n ≤ s.dramBytes then .dram a else .err)
  else if a < 0x1090000000 then
    let p := (a - 0x1000000000) / 0x2000000
    let o := (a - 0x1000000000) % 0x2000000
    if p < 9 * s.clusters then
      match winPart o n with
      | some .regs => .reg a
      | some w => .core p w a
      | none => .err
    else .err
  else if 0x10C0000000 ≤ a ∧ a < 0x10C0800000 then
    (if (a - 0x10C0000000) / 0x100000 < s.clusters ∧ (a - 0x10C0000000) % 0x100000 + n ≤ 0x100000 then .reg a else .err)
  else if 0x1100000000 ≤ a ∧ a < 0x1180000000 then
    let l := (a - 0x1100000000) / 0x2000000
    let o := (a - 0x1100000000) % 0x2000000
    if l < 8 * s.clusters then
      match s.physOf l, winPart o n with
      | some p, some .regs => .reg (coreBase p + o)
      | some p, some w => .core p w (coreBase p + o)
      | _, _ => .err
    else .err
  else if 0x1200000000 ≤ a ∧ a < 0x1210000000 then
    (if Reg.blockAssigned ((a - 0x1200000000) / 0x100000) ∧ (a - 0x1200000000) % 0x100000 + n ≤ 0x100000 then .reg a
     else .err)
  else if 0x1300000000 ≤ a ∧ a < 0x1302000000 then
    (if a + n ≤ 0x1300000000 + s.windowBytes then .window a else .err)
  else if 0x1400000000 ≤ a ∧ a + n ≤ 0x1400040000 then .rom a
  else if 0x1401000000 ≤ a ∧ a + n ≤ 0x1401800000 then .nvm a
  else .err

/-- The address at which a memory place is held, none for registers and bus errors. -/
def Place.addr : Place → Option Nat
  | .core _ _ a => some a
  | .dram a => some a
  | .window a => some a
  | .rom a => some a
  | .nvm a => some a
  | _ => none

/-- A place that a write may change (R28, R481: boot ROM and NVM window are read-only). -/
def Place.writable : Place → Bool
  | .core _ _ _ => true
  | .dram _ => true
  | .window _ => true
  | _ => false

/-! ### Time -/

/-- The timebase in ns (R43). -/
def State.time (s : State) : Nat := s.reg64 Reg.TBS_TIME_LO

/-- The pick number (R43): the timebase divided by 1,000. -/
def State.pickNow (s : State) : Nat := s.reg64 Reg.WV_PICK_LO

/-- The picks since the first pick of the tick: the pick offset, and at least T once the tick has ended. -/
def State.offset (s : State) : Nat := s.pickNow - s.weave.tickPick

/-! ### Events and errors (R14, R28, R387) -/

/-- Word w of log entry i. -/
abbrev logWord (i w : Nat) : Nat := Reg.RAS_LOG (8 * i + w)

/-- The index of a log entry into which a corrected event is merged (R387): same code, source and address within one
second. -/
def State.mergeEntry (s : State) (code source addr : Nat) : Option Nat :=
  (List.range 256).find? (fun i =>
    s.regN (logWord i 3) == code + 0x10000 + source * 0x1000000 && s.reg64 (logWord i 6) == addr &&
    decide (s.time ≤ s.reg64 (logWord i 0) + 1000000000) && decide (s.regN (logWord i 5) ≠ 0))

/-- A log entry of class 3 exists (RAS_STATUS[0]): word 3 of some entry holds class 3 in bits [23:16]. -/
def State.lostFunctionLogged (s : State) : Bool :=
  s.regs.any (fun r => decide (Reg.RAS_LOG 0 ≤ r.1) && decide (r.1 < Reg.RAS_LOG 2048) &&
    (r.1 - Reg.RAS_LOG 0) % 32 == 12 && field r.2.toNat 16 8 == 3)

/-- Logs an event in block 0x49, and in the event history of NVM that the steward keeps (R387, R462). -/
def State.logEvent (s : State) (code cls source detail addr : Nat) : State :=
  let s1 := if cls = 1 then s.sticky Reg.RAS_IRQ_STATUS 0 else if cls = 2 then s.sticky Reg.RAS_IRQ_STATUS 1
            else if cls = 3 then s.sticky Reg.RAS_IRQ_STATUS 2 else s
  match (if cls = 1 then s.mergeEntry code source addr else none) with
  | some i => s1.satAdd (logWord i 5) 1
  | none =>
    let i := s.fld Reg.RAS_LOG_NEXT 0 8
    let seq := (s.events + 1) % 2 ^ 32
    let entry := leBytes 8 s.time ++ leBytes 4 seq ++ leBytes 2 code ++ [cls, source] ++ leBytes 4 detail ++ leBytes 4 1 ++ leBytes 8 addr
    let s2 := { s1 with events := seq, hist := entry :: s1.hist.take 4095, histCount := s1.histCount + 1 }
    let s3 := ((((((s2.setReg64 (logWord i 0) s.time).setRegN (logWord i 2) seq).setRegN (logWord i 3)
      (code % 65536 + cls * 0x10000 + source * 0x1000000)).setRegN (logWord i 4) detail).setRegN (logWord i 5) 1).setReg64
      (logWord i 6) addr).setRegN Reg.RAS_LOG_SEQ seq |>.setRegN Reg.RAS_LOG_NEXT ((i + 1) % 256)
    s3.putBit Reg.RAS_STATUS 0 s3.lostFunctionLogged

/-- Records a bus error of a master at an address (R28). -/
def State.busError (s : State) (addr master : Nat) (write : Bool) : State :=
  let s1 := s.satAdd Reg.RAS_BUSERR 1 |>.sticky Reg.RAS_IRQ_STATUS 4
  let s2 := if s.bit Reg.RAS_BUSCAP_HI 31 then s1
    else (s1.setRegN Reg.RAS_BUSCAP_LO (addr % 2 ^ 32)).setRegN Reg.RAS_BUSCAP_HI
      (addr / 2 ^ 32 % 256 + master * 256 + (if write then 0x10000 else 0) + 0x80000000)
  s2.logEvent 0x514 0 0x49 (master + (if write then 256 else 0)) addr

/-- Records a write of a master to a locked field (R14). -/
def State.lockViolation (s : State) (addr master : Nat) : State :=
  let s1 := s.satAdd Reg.RAS_LOCKVIOL 1 |>.sticky Reg.RAS_IRQ_STATUS 3
  let s2 := if s.bit Reg.RAS_LOCKCAP_HI 31 then s1
    else (s1.setRegN Reg.RAS_LOCKCAP_LO (addr % 2 ^ 32)).setRegN Reg.RAS_LOCKCAP_HI
      (addr / 2 ^ 32 % 256 + master * 256 + 0x80000000)
  s2.logEvent 0x513 0 0x49 master addr

/-! ### Cores -/

/-- Physical core p. -/
def State.core (s : State) (p : Nat) : Core := Tbl.get (fun _ => Core.init) s.cores p

/-- Replaces physical core p. -/
def State.setCore (s : State) (p : Nat) (c : Core) : State :=
  { s with cores := Tbl.set (fun _ => Core.init) s.cores p c }

/-- Changes physical core p. -/
def State.modCore (s : State) (p : Nat) (f : Core → Core) : State := s.setCore p (f (s.core p))

/-- CORE_STATUS.state: 0 PARKED, 1 RUNNING, 2 WAITING, 3 HALTED, 4 SPARE. -/
def State.coreState (s : State) (p : Nat) : Nat := s.fld (Reg.CORE_STATUS p) 0 3

/-- Sets CORE_STATUS.state and wait. -/
def State.setCoreState (s : State) (p st wait : Nat) : State :=
  (s.setFld (Reg.CORE_STATUS p) 0 3 st).setFld (Reg.CORE_STATUS p) 4 3 wait

/-- The core is PARKED, HALTED or SPARE: writes from outside take effect (R94, R116, R151, R228). -/
def State.coreStopped (s : State) (p : Nat) : Bool := s.coreState p == 0 || s.coreState p == 3 || s.coreState p == 4

/-- WV_STATUS.state. -/
def State.weaveState (s : State) : Nat := s.fld Reg.WV_STATUS 0 3

/-- The running variant of the active image; while the weave is ARMED, the variant selected for its first tick; none during
a changeover tick (R69). -/
def State.variant (s : State) : Option Variant :=
  match s.weave.active with
  | some im =>
    if s.bit Reg.WV_STATUS 6 then none
    else im.variants.find? (fun v => v.id == s.fld Reg.WV_VARIANT (if s.weaveState = 3 then 16 else 0) 16)
  | none => none

/-- The core section of logical core L in the running variant. -/
def State.roleSec (s : State) (l : Nat) : Option CoreSec :=
  match s.variant with
  | some v => v.cores.find? (fun c => c.core == l)
  | none => none

/-- The core section that physical core p runs. -/
def State.coreSec (s : State) (p : Nat) : Option CoreSec :=
  match s.roleOf p with
  | some l => s.roleSec l
  | none => none

/-- Physical core p holds a woven role of an ARMED or RUNNING weave (R235, R372). -/
def State.wovenRole (s : State) (p : Nat) : Bool :=
  (s.weaveState == 3 || s.weaveState == 4) && (s.coreSec p).isSome

/-- Tick length that bounds the WAITPICK operands of core p (R225, R232). -/
def State.coreTick (s : State) (p : Nat) : Nat :=
  match s.roleOf p with
  | some _ => s.weave.tickLen
  | none => 1000000

/-- Pick offset of core p's tick: that of the weave, or of its own tick without a role (R232). -/
def State.coreOffset (s : State) (p : Nat) : Nat :=
  match s.roleOf p with
  | some _ => s.offset
  | none => match (s.core p).ownTick with
    | some t => s.pickNow - t
    | none => 0

/-- CORE_ROLE of physical core p (Table, CORE_ROLE fields). -/
def State.coreRole (s : State) (p : Nat) : Nat :=
  match s.roleOf p with
  | some l => l + 0x40 + (if p % 9 = 8 then 0x80 else 0) + s.roleEpoch l * 256
  | none => 0

/-- CLU_SLOTSTATE of cluster g: the state of slot i in bits [3i + 2 : 3i]. -/
def State.slotState (s : State) (g : Nat) : Nat :=
  (List.range 9).foldl (fun acc i => acc + s.coreState (physCore g i) * 2 ^ (3 * i)) 0

/-- Owner of the parameter sets that core p uses: its role, or the core itself (R221). -/
def State.paramOwner (s : State) (p : Nat) : Nat :=
  match s.roleOf p with
  | some l => l
  | none => 64 + p

/-- Active parameter n of core p (R220). -/
def State.paramActive (s : State) (p n : Nat) : Word := Tbl.get (fun _ => 0) s.pactive (64 * s.paramOwner p + n)

end Sys2Proof.Machine
end

