-- ==== Sys2Proof/Machine/PowerOps.lean ====
section
/-! DEFINITION. The set points of the compute dies: step, voltage and the guard of phase hints (15_power_and_thermal.md R394, R395,
R397). -/

namespace Sys2Proof.Machine

/-- Compute dies present (R4, R21). -/
def State.dies (s : State) : Nat := if s.isHV480 then 1 else 2

/-- The supply and clock of die d. -/
def State.rail (s : State) (d : Nat) : Rail := Tbl.get (fun _ => Rail.init) s.power.rails d

/-- Sets the supply and clock of die d. -/
def State.setRail (s : State) (d : Nat) (r : Rail) : State :=
  { s with power := { s.power with rails := Tbl.set (fun _ => Rail.init) s.power.rails d r } }

/-- PWR_DIEd. -/
def dieReg (d : Nat) : Nat := Reg.PWR_DIE0 + 4 * d

/-- Step in force of die d. -/
def State.dieStep (s : State) (d : Nat) : Nat := s.fld (dieReg d) 0 4

/-- Set voltage of die d in mV. -/
def State.vset (s : State) (d : Nat) : Nat := s.fld (dieReg d) 4 10

/-- Table voltage of a step of die d in mV. -/
def State.tableVolts (s : State) (d step : Nat) : Nat := s.fld (Reg.PWR_VF (11 * d + step)) 0 10

/-- Hint level in force of logical core l (R397). -/
def State.hintOf (s : State) (l : Nat) : Nat := Tbl.get (fun _ => 0) s.weave.hintLevel l

/-- Largest hint level in force among the cores of die d. -/
def State.dieHint (s : State) (d : Nat) : Nat := ((List.range 32).map (fun i => s.hintOf (32 * d + i))).foldl max 0

/-- Guard of die d in mV: that of the largest level in force or asked for, since a raise begins at once (R397). -/
def State.guardOf (s : State) (d : Nat) : Nat :=
  let asked := ((s.weave.hints.filter (fun h => h.1 / 32 == d)).map (fun h => h.2.1)).foldl max 0
  match max (s.dieHint d) asked with
  | 0 => 0
  | 1 => s.fld Reg.PWR_HINTV 0 8
  | _ => s.fld Reg.PWR_HINTV 8 8

/-- Own target voltage of die d: table voltage of the step aimed at plus the guard, at most 850 mV (R395). -/
def State.ownVolts (s : State) (d : Nat) : Nat := min 850 (s.tableVolts d (s.rail d).goal + s.guardOf d)

/-- Target voltage of die d: the rails stay within 150 mV of each other (R395). -/
def State.needVolts (s : State) (d : Nat) : Nat :=
  if s.dies = 2 then max (s.ownVolts d) (max (s.ownVolts (1 - d)) (s.vset (1 - d)) - 150) else s.ownVolts d

/-- PWR_DIEd shows the hint level and whether the die moves; PMB_STATUS the transactions in flight; PWR_STATUS.fixed_active whether
fixed-frequency mode holds every die at its step (R396). -/
def State.showRails (s : State) : State :=
  let s1 := (List.range s.dies).foldl (fun t d =>
    let r := t.rail d
    ((t.setFld (dieReg d) 14 2 (t.dieHint d)).putBit (dieReg d) 16 (r.sending.isSome || r.goal != t.dieStep d)).putBit Reg.PMB_STATUS d
      r.sending.isSome) s
  let held := match s1.power.fixedIn with
    | some f => (List.range s1.dies).all (fun d => s1.dieStep d == f)
    | none => false
  s1.putBit Reg.PWR_STATUS 0 held

/-- Starts the voltage transaction of die d when its target differs from the set voltage and the other rail allows it: the lower rail
is raised before the higher and lowered after it (R395). No command goes to a faulty rail (R399). -/
def State.kickRail (s : State) (d : Nat) : State :=
  let r := s.rail d
  let v := s.needVolts d
  if r.sending.isSome ∨ r.faulty = true ∨ v = s.vset d ∨ (s.dies = 2 ∧ s.vset (1 - d) + 150 < v) then s
  else s.setRail d { r with sending := some v }

/-- Starts every voltage transaction that is due. -/
def State.kickRails (s : State) : State := ((List.range s.dies).foldl (fun t d => t.kickRail d) s).showRails

/-- The clocks of die d switch to a step. -/
def State.switchStep (s : State) (d step : Nat) : State :=
  if s.dieStep d = step then s
  else
    let s1 := ((s.setFld (dieReg d) 0 4 step).satAdd Reg.PWR_FSTEPS 1).sticky Reg.PWR_IRQ_STATUS 0
    s1.setRail d { s1.rail d with changed := some s.time }

/-- Die d aims at a step: a lower step switches the clocks first (R395). -/
def State.aim (s : State) (d step : Nat) : State :=
  let s1 := s.setRail d { s.rail d with goal := step }
  if step < s.dieStep d then s1.switchStep d step else s1

end Sys2Proof.Machine
end

