-- ==== Sys2Proof/Machine/JobOps.lean ====
section
/-! DEFINITION. Operations over the dispatched loose jobs (10_jobs_and_preemption.md R272, R273, R278, R287, R289): the
registers that report them, the end of a job, and the events that end jobs without a save. -/

namespace Sys2Proof.Machine

/-- Client of a job number (R278). -/
def Job.client (j : Job) : Nat := j.num / 4

/-- The job holds a loose context. -/
def Job.resident (j : Job) : Bool := j.phase != .saved

/-- CORE_LCTXn.state of a phase. -/
def JobPhase.code : JobPhase → Nat
  | .running => 1
  | .draining => 2
  | .saving => 3
  | .restoring => 4
  | .saved => 0

/-- The job that occupies loose context k of logical core l. -/
def State.jobAt (s : State) (l k : Nat) : Option Job :=
  s.jobs.jobs.find? (fun j => j.core == l && j.ctxSlot == k && j.resident)

/-- CORE_LCTXk of physical core p. -/
def State.lctx (s : State) (p k : Nat) : Nat :=
  match s.roleOf p with
  | none => 0
  | some l => match s.jobAt l k with
    | some j => j.num + j.phase.code * 256
    | none => 0

/-- WV_JOBSTAT: jobs holding a context and jobs held in save areas. -/
def State.jobStat (s : State) : Nat :=
  (s.jobs.jobs.filter Job.resident).length + (s.jobs.jobs.filter (fun j => !j.resident)).length * 256

/-- WV_JQn_STAT.jobs: dispatched jobs of client n not yet ended. -/
def State.clientJobs (s : State) (n : Nat) : Nat := (s.jobs.jobs.filter (fun j => j.client == n)).length

/-- Replaces the list of jobs. -/
def State.setJobs (s : State) (js : List Job) : State :=
  { s with jobs := { s.jobs with jobs := js } }

/-- Replaces the job with the same number. -/
def State.putJob (s : State) (j : Job) : State :=
  s.setJobs (s.jobs.jobs.map (fun i => if i.num == j.num then j else i))

/-- Writes the end of a job into its descriptor, the status word last, and counts it for client n (R273). -/
def State.writeJobEnd (s : State) (n descAddr code halt num core pc : Nat) (irq : Bool) : State :=
  let s1 := s.setLe (descAddr + 52) 4 (pc % 2 ^ 20)
  let s2 := s1.setLe (descAddr + 56) 8 s.pickNow
  let s3 := s2.setLe (descAddr + 48) 4 (code + halt * 256 + num * 0x10000 + core * 0x1000000 + 0x80000000)
  (s3.wrapAdd (Reg.WV_JQ_DONE n) 1).stickyIf irq Reg.WV_JOBIRQ n

/-- Job end codes. -/
def endDone : Nat := 1
def endProgramFault : Nat := 2
def endCancelled : Nat := 3
def endCoreFault : Nat := 4
def endAllowance : Nat := 5
def endBadJob : Nat := 6
def endWeaveChange : Nat := 7
def endHedge : Nat := 8
def endUncorrectable : Nat := 9

/-- Ends a dispatched job: its descriptor is written and it leaves the list (R273). -/
def State.endJob (s : State) (j : Job) (code halt : Nat) : State :=
  (s.writeJobEnd j.client j.descAddr code halt j.num j.core j.ctx.pc j.irq).setJobs
    (s.jobs.jobs.filter (fun i => i.num != j.num))

/-- Ends every dispatched job that a condition selects (R289). -/
def State.endJobs (s : State) (code : Nat) (c : Job → Bool) : State :=
  (s.jobs.jobs.filter c).foldl (fun t j => t.endJob j code 0) s

end Sys2Proof.Machine
end

