-- ==== Sys2Proof/Machine/Repair.lean ====
section
/-! DEFINITION. The field repair log (14_resilience_and_failover.md R364, R365, R372). -/

namespace Sys2Proof.Machine

/-- Source byte of the error log for physical core p: its cluster (R387). -/
def srcOfCore (p : Nat) : Nat := 0xE0 + p / 9

/-- The steward adds a repair entry, or logs that the log is full (R364, R365). -/
def State.addRepair (s : State) (kind unit mac index : Nat) : State :=
  if 2048 ≤ s.dram.repairs.length then (s.sticky Reg.RAS_REPAIR 31).logEvent 0x50E 2 0x49 (mac + unit * 0x10000) 0
  else
    let e : RepairEntry := { kind := kind, unit := unit, mac := mac, index := index, time := s.time }
    ({ s with dram := { s.dram with repairs := s.dram.repairs ++ [e] } }).logEvent 0x50D 1 0x49 kind 0

/-- Seven days of the timebase in ns. -/
def sevenDays : Nat := 604800000000000

/-- A core halted for a reason of class hardware takes part in a failover: the second such failover within 7 days retires its
slot (R365). -/
def State.countHwHalt (s : State) (p : Nat) : State :=
  let near := s.dram.hwHalts.any (fun h => h.1 == p && decide (s.time ≤ h.2 + sevenDays))
  let known := s.dram.repairs.any (fun e => e.kind == 3 && e.unit == p)
  let s1 := { s with dram := { s.dram with hwHalts := (p, s.time) :: s.dram.hwHalts.filter (fun h => h.1 != p) } }
  if near && !known then s1.addRepair 3 p 0 0 else s1

end Sys2Proof.Machine
end

