-- ==== Sys2Proof/Machine/Halt.lean ====
section
/-! DEFINITION. Halts and what follows them (08_core_programming_model.md R218, R234, R235; 14_resilience_and_failover.md
R372, R373, R378, R380, R381): the halt latch, the end of loose jobs, the fault set, and the start of a failover. -/

namespace Sys2Proof.Machine

/-! ### Halt reasons (Table, Halt reasons) -/

def haltInsn : Nat := 0x01
def haltIllegal : Nat := 0x02
def haltStack : Nat := 0x03
def haltLoop : Nat := 0x04
def haltPickOrder : Nat := 0x05
def haltMeConfig : Nat := 0x06
def haltAccRange : Nat := 0x07
def haltSeFormat : Nat := 0x08
def haltParkAbort : Nat := 0x09
def haltSeAddr : Nat := 0x0A
def haltUncorrCtrl : Nat := 0x0B
def haltUncorrData : Nat := 0x0C
def haltPickMiss : Nat := 0x0D
def haltExt : Nat := 0x0E
def haltRetired : Nat := 0x0F
def haltNative : Nat := 0x10

/-- Class of a halt reason: 0 none, 1 program, 2 hardware, 3 request. -/
def haltClass (code : Nat) : Nat :=
  if code = 0 then 0
  else if code = haltExt then 3
  else if code = haltParkAbort ∨ code = haltUncorrCtrl ∨ code = haltUncorrData ∨ code = haltPickMiss ∨ code = haltRetired ∨
    code = haltNative then 2
  else 1

/-! ### Fault set (R381) -/

/-- Source byte of a cluster or a compute die in the error log (R387). -/
def srcCluster (g : Nat) : Nat := 0xE0 + g
def srcDie (d : Nat) : Nat := 0xF0 + d

/-- Roles of cluster g without a core: no core after a failover, a role marked lost, or no slot in the role table. -/
def State.rolesWithout (s : State) (g : Nat) : Nat :=
  ((List.range 8).filter (fun i =>
    s.weave.noCore.contains (8 * g + i) || s.bit (Reg.CLU_ROLE g i) 17 || (s.roleSlot (8 * g + i)).isNone)).length

/-- Marks die d lost in WV_FAULTSET (R381). -/
def State.loseDie (s : State) (d : Nat) : State :=
  if s.bit Reg.WV_FAULTSET (16 + d) then s
  else (s.sticky Reg.WV_FAULTSET (16 + d)).logEvent 0x50B 3 (srcDie d) d 0

/-- Marks cluster g lost in WV_FAULTSET; a die whose four clusters are lost is lost (R381). -/
def State.loseCluster (s : State) (g : Nat) : State :=
  if s.bit Reg.WV_FAULTSET (8 + g) then s
  else
    let s1 := (s.sticky Reg.WV_FAULTSET (8 + g)).logEvent 0x50A 3 (srcCluster g) g 0
    if (List.range 4).all (fun c => s1.bit Reg.WV_FAULTSET (8 + g / 4 * 4 + c)) then s1.loseDie (g / 4) else s1

/-- Marks cluster g reduced in WV_FAULTSET (R381). -/
def State.reduceCluster (s : State) (g : Nat) : State :=
  if s.bit Reg.WV_FAULTSET g then s
  else (s.sticky Reg.WV_FAULTSET g).logEvent 0x509 3 (srcCluster g) g 0

/-- Clears a mark of WV_FAULTSET unless it stays until the next reset. -/
def State.unmark (s : State) (i : Nat) : State :=
  if s.weave.hardFaults.testBit i then s else s.putBit Reg.WV_FAULTSET i false

/-- A mark of WV_FAULTSET stays until the next reset. -/
def State.hardMark (s : State) (i : Nat) : State :=
  { s with weave := { s.weave with hardFaults := s.weave.hardFaults ||| 2 ^ i } }

/-- Updates WV_FAULTSET for cluster g (R381): one role without a core reduces it, two or more lose it; a role that software
has restored leaves the fault set. -/
def State.updateFaultSet (s : State) (g : Nat) : State :=
  let n := s.rolesWithout g
  if 2 ≤ n then s.loseCluster g
  else
    let s1 := (s.unmark (8 + g)).unmark (16 + g / 4)
    if n = 1 then s1.reduceCluster g else s1.unmark g

/-! ### Roles without a core -/

/-- Opens the interval in which role l's slots are served under R378, with the epoch and spare flag of its mapping. -/
def State.serveHoles (s : State) (l : Nat) : State :=
  match Tbl.get (fun _ => none) s.weave.serving l with
  | some _ => s
  | none =>
    { s with weave := { s.weave with
        serving := Tbl.set (fun _ => none) s.weave.serving l (some ⟨s.roleEpoch l, s.roleSlot l == some 8⟩) } }

/-- Role l has no core from here on: its slots are served as holes, event 0x0508, and the fault set (R380, R381). -/
def State.roleWithout (s : State) (l : Nat) : State :=
  let s1 := s.serveHoles l
  let s2 := { s1 with weave := { s1.weave with noCore := if s1.weave.noCore.contains l then s1.weave.noCore else l :: s1.weave.noCore } }
  (s2.logEvent 0x508 3 (srcCluster (l / 8)) l 0).updateFaultSet (l / 8)

/-- Marks role l lost after a halt of class program (R235): its loose jobs end, its slots are served as holes. -/
def State.loseRole (s : State) (l : Nat) : State :=
  let s1 := (s.sticky (Reg.CLU_ROLE (l / 8) (l % 8)) 17).sticky (Reg.CLU_STATUS (l / 8)) (6 + l % 8)
  let s2 := s1.endJobs endCoreFault (fun j => j.core == l)
  ((s2.serveHoles l).logEvent 0x508 3 (srcCluster (l / 8)) l 0).updateFaultSet (l / 8)

/-! ### Failover (R373) -/

/-- The failover of cluster g, if one is in progress. -/
def State.failover (s : State) (g : Nat) : Option Failover := Tbl.get (fun _ => none) s.weave.failovers g

/-- Sets or clears the failover of cluster g. -/
def State.setFailover (s : State) (g : Nat) (f : Option Failover) : State :=
  { s with weave := { s.weave with failovers := Tbl.set (fun _ => none) s.weave.failovers g f } }

/-- The slot of cluster g that is its spare: a SPARE core, or a core in SPARE initialisation, without a role. -/
def State.spareSlot (s : State) (g : Nat) : Option Nat :=
  (List.range 9).reverse.find? (fun i =>
    (s.coreState (physCore g i) == 4 || s.bit (Reg.CORE_STATUS (physCore g i)) 7) && (s.roleOf (physCore g i)).isNone)

/-- Sends an invalidation of role-table entry l to every core (R179, R373): it takes effect at the next pick boundary. -/
def State.invalidateRole (s : State) (l : Nat) : State :=
  { s with roleInval := if s.roleInval.contains l then s.roleInval else l :: s.roleInval }

/-- Writes the slot of role-table entry l and increments its epoch (R27); slot 15 is no core. -/
def State.mapRole (s : State) (l slot : Nat) : State :=
  let a := Reg.CLU_ROLE (l / 8) (l % 8)
  let s1 := ((s.setFld a 0 4 slot).setFld a 8 8 (s.roleEpoch l + 1)).putBit a 16 (slot ≤ 8)
  (s1.satAdd (Reg.CLU_ROLECHG (l / 8)) 1).invalidateRole l

/-- A core that holds role l is declared faulty with a halt reason code (R372, R373): the spare, if the cluster has one,
takes the entry and its load begins; without a spare the role has no core (R380). -/
def State.declareFaulty (s : State) (l code : Nat) : State :=
  let g := l / 8
  match s.roleSlot l with
  | none => s
  | some failed =>
    match s.spareSlot g, s.failover g with
    | some sp, none =>
      let s1 := s.serveHoles l
      let s2 := (s1.sticky (Reg.CLU_STATUS g) 5).logEvent 0x506 2 (srcCluster g) (l + failed * 256 + code * 0x10000) 0
      let s3 := s2.mapRole l sp
      let mark := Tbl.get (fun _ => none) s3.weave.shadowMark l
      let s4 := s3.setFailover g (some ⟨l, failed, code, s3.time, none, mark.isSome⟩)
      let s5 := if haltClass code = 2 then s4.countHwHalt (physCore g failed) else s4
      if s5.coreState (physCore g sp) = 4 then s5.setCoreState (physCore g sp) 2 0 else s5
    | _, _ => s.roleWithout l

/-- Ends a failover without a running role (R380): event 0x0508, the role has no core. -/
def State.abortFailover (s : State) (g : Nat) : State :=
  match s.failover g with
  | none => s
  | some f => ((s.setFailover g none).putBit (Reg.CLU_STATUS g) 5 false).roleWithout f.role

/-! ### The halt (R234) -/

/-- Writes the halt latch of core p. -/
def State.latchHalt (s : State) (p code info addr pc : Nat) (loose : Bool) : State :=
  let v := code + haltClass code * 256 + (if s.wovenRole p then 1024 else 0) + (if loose then 2048 else 0) +
    info % 65536 * 65536
  (((s.setRegN (Reg.CORE_HALT_PC p) (pc % 2 ^ 20)).setRegN (Reg.CORE_HALT_REASON p) v).setReg64 (Reg.CORE_HALT_PICK_LO p)
    s.pickNow).setReg64 (Reg.CORE_HALT_ADDR_LO p) (addr % 2 ^ 40)

/-- Core p halts for a reason (R218, R234, R235): the first halt latches; the resident loose jobs end (R289); a woven role
fails over or is lost by the class of the reason; a SPARE core is no longer its cluster's spare. -/
def State.haltCore (s : State) (p code info addr : Nat) (loose : Bool) : State :=
  if s.coreState p = 3 then s.satAddFld (Reg.CORE_HALT_REASON p) 12 4 1
  else
    let woven := s.wovenRole p
    let role := s.roleOf p
    let wasSpare := s.coreState p == 4
    let g := p / 9
    let s1 := s.latchHalt p code info addr (s.core p).woven.pc loose
    let s2 := (s1.setCoreState p 3 0).putBit (Reg.CORE_STATUS p) 3 false
    let s3 := s2.modCore p (fun c => { c with held := none, syncAt := none, waitN := 0 })
    let s4 := match role with
      | some l => if haltClass code = 1 then s3 else s3.endJobs endCoreFault (fun j => j.core == l && j.resident)
      | none => s3
    let s5 := if wasSpare then s4.putBit (Reg.CLU_STATUS g) 0 false else s4
    match s5.failover g with
    | some f =>
      if s5.physOf f.role = some p then s5.abortFailover g
      else match role with
        | some l => if woven then (if haltClass code = 1 then s5.loseRole l else s5.roleWithout l) else s5
        | none => s5
    | none =>
      match role with
      | some l => if woven then (if haltClass code = 1 then s5.loseRole l else s5.declareFaulty l code) else s5
      | none => s5

end Sys2Proof.Machine
end

