-- ==== Sys2Proof/Machine/Operands.lean ====
section
/-! DEFINITION. The operands of weft instructions (09_weft_reference.md R241 to R244, R250, R251): contexts, selectors,
destinations, scratchpad addresses, the issue of an instruction, and the advance of the sequencer (R226). -/

namespace Sys2Proof.Machine

/-! ### Contexts -/

/-- The job that a loose context executes, if one occupies it. -/
def State.loosejob (s : State) (p k : Nat) : Option Job :=
  match s.roleOf p with
  | some l => s.jobAt l k
  | none => none

/-- The registers of a context. -/
def State.ctx (s : State) (x : Ctx) : Context :=
  match x with
  | .woven p => (s.core p.val).woven
  | .loose p k => match s.loosejob p.val k.val with
    | some j => j.ctx
    | none => Context.init

/-- Replaces the registers of a context. -/
def State.setCtx (s : State) (x : Ctx) (c : Context) : State :=
  match x with
  | .woven p => s.modCore p.val (fun k => { k with woven := c })
  | .loose p k => match s.loosejob p.val k.val with
    | some j => s.putJob { j with ctx := c }
    | none => s

/-- Changes the registers of a context. -/
def State.modCtx (s : State) (x : Ctx) (f : Context → Context) : State := s.setCtx x (f (s.ctx x))

/-- The context is loose. -/
def isLoose : Ctx → Bool
  | .woven _ => false
  | .loose _ _ => true

/-- Lag of logical core l in WV_LAG0 to WV_LAG3 (R49). -/
def State.lag (s : State) (l : Nat) : Nat := s.fld (Reg.WV_LAG (l / 16)) (2 * (l % 16)) 2

/-- The sequencer of the context issues instructions: a RUNNING core for its woven context; for a loose context a running
job on a RUNNING or WAITING core whose woven lag is 0 (R268, R280, R283, R286). -/
def State.canIssue (s : State) (x : Ctx) : Bool :=
  match x with
  | .woven p => s.coreState p.val == 1 && decide (p.val < 9 * s.clusters) && !s.bit (Reg.CORE_STATUS p.val) 3
  | .loose p k => match s.loosejob p.val k.val with
    | some j => j.phase == .running && j.held.isNone && (s.coreState p.val == 1 || s.coreState p.val == 2) &&
        !s.bit (Reg.CORE_STATUS p.val) 3 && s.lag j.core == 0
    | none => false

/-- CORE_NUMCFG.ftz for the commands of a context: the core's, or the loose image's (R116, R276). -/
def State.ftz (s : State) (x : Ctx) : Bool :=
  match x with
  | .woven p => s.bit (Reg.CORE_NUMCFG p.val) 0
  | .loose p k => match s.loosejob p.val k.val with
    | some j => j.ftz
    | none => false

/-! ### Registers and selectors (R220, R243) -/

/-- Scalar register n of a context. -/
def Context.getS (c : Context) (n : Nat) : Word := Tbl.get (fun _ => 0) c.s n

/-- Address register n of a context. -/
def Context.getA (c : Context) (n : Nat) : DevAddr := Tbl.get (fun _ => 0) c.a n

/-- A context with scalar register n set. -/
def Context.setS (c : Context) (n : Nat) (v : Word) : Context := { c with s := Tbl.set (fun _ => 0) c.s n v }

/-- A context with address register n set. -/
def Context.setA (c : Context) (n : Nat) (v : DevAddr) : Context := { c with a := Tbl.set (fun _ => 0) c.a n v }

/-- Loop counter n of a context. -/
def Context.getL (c : Context) (n : Nat) : Word := Tbl.get (fun _ => 0) c.lc n

/-- Parameter register n as a context reads it: the active set of the role, or the loose context's own (R220, R276). -/
def State.param (s : State) (x : Ctx) (n : Nat) : Word :=
  match x with
  | .woven p => s.paramActive p.val n
  | .loose _ _ => Tbl.get (fun _ => 0) (s.ctx x).p n

/-- The value a 7-bit selector names (Table, Selector encoding); the reserved range reads 0 and is rejected before. -/
def State.sel (s : State) (x : Ctx) (v : BitVec 7) : Word :=
  let n := v.toNat
  if n < 0x20 then (s.ctx x).getS n
  else if n < 0x30 then ((s.ctx x).getA (n - 0x20)).setWidth 32
  else if n < 0x40 then 0
  else s.param x (n - 0x40)

/-- Operand b of the scalar ALU. -/
def State.bsrc (s : State) (x : Ctx) : BSrc → Word
  | .sel v => s.sel x v
  | .imm v => v

/-! ### Sequencer (R226) -/

/-- after_instruction_at(idx) of R226, from depth d: a loop whose last instruction is idx counts down, and its body runs
again or the enclosing loop is tested. -/
def loopEnd (idx : Nat) : Nat → Context → Context
  | 0, c => c
  | d + 1, c =>
    if Tbl.get (fun _ => 0) c.lend d = idx then
      let v := Tbl.get (fun _ => 0) c.lc d - 1
      let c1 := { c with lc := Tbl.set (fun _ => 0) c.lc d v }
      if v ≠ 0 then { c1 with pc := Tbl.get (fun _ => 0) c.lstart d }
      else loopEnd idx d { c1 with depth := d }
    else c

/-- The context after an instruction at idx that continues at pc. -/
def Context.after (c : Context) (idx pc : Nat) : Context := loopEnd idx c.depth { c with pc := pc }

/-- The number of instructions of the program a context runs, where the device knows it: the role's core section, or the
loose image (R224). -/
def State.progLen (s : State) (x : Ctx) : Option Nat :=
  match x with
  | .woven p => (s.coreSec p.val).map (fun c => c.weft.length)
  | .loose p k => (s.loosejob p.val k.val).map (fun j => j.count)

/-- What a sequencer does on reaching a weft index: at the program's length a woven sequencer waits for the tick boundary
and a loose job ends DONE (R224). -/
def State.atIndex (s : State) (x : Ctx) : State :=
  match s.progLen x with
  | none => s
  | some n =>
    if (s.ctx x).pc < n then s
    else match x with
      | .woven p => s.setCoreState p.val 2 4
      | .loose p k => match s.loosejob p.val k.val with
        | some j => s.endJob j endDone 0
        | none => s

/-- The sequencer goes on at pc after the instruction at which it stood (R226). -/
def State.goto (s : State) (x : Ctx) (pc : Nat) : State :=
  (s.modCtx x (fun c => c.after c.pc pc)).atIndex x

/-- The sequencer goes on at the next instruction. -/
def State.advance (s : State) (x : Ctx) : State := s.goto x ((s.ctx x).pc + 1)

/-! ### Faults of an instruction (R234, R236) -/

/-- An instruction raises a halt reason: the core halts, or the loose job ends when the reason is of class program. -/
def State.weftFault (s : State) (x : Ctx) (code info addr : Nat) : State :=
  match x with
  | .woven p => s.haltCore p.val code info addr false
  | .loose p k =>
    if haltClass code = 1 then
      match s.loosejob p.val k.val with
      | some j => s.endJob j endProgramFault code
      | none => s
    else s.haltCore p.val code info addr true

/-- info of ILLEGAL: opcodes and the reserved-field bit (R242). -/
def illegalInfo (major minor : Nat) : Nat := major + minor * 64 + 0x1000

/-- The issue of a weft instruction: nothing happens when the sequencer of the context does not issue (R218); a reserved
encoding halts with ILLEGAL (R242); otherwise the instruction's own effect. -/
def issue (x : Ctx) (major minor : Nat) (ok : Bool) (s : State) (f : State → State) :
    Host.Outcome State Fault Refusal :=
  if s.canIssue x then
    if ok then .next (f s) else .next (s.weftFault x haltIllegal (illegalInfo major minor) 0)
  else .next s

/-! ### Scalar and vector addresses (R245, R251, R256) -/

/-- Sign extension of a 16-bit offset to 40 bits. -/
def sext16 (o : BitVec 16) : DevAddr := o.signExtend 40

/-- The physical address of n bytes at a device address in the context's own scratchpad, through the physical or the logical
alias window; none where they do not all lie there (R157, R251). -/
def State.ownScratch (s : State) (x : Ctx) (a n : Nat) : Option Nat :=
  let p := x.core
  let off := fun (base : Nat) => if base ≤ a ∧ a + n ≤ base + 0x200000 then some (coreBase p + (a - base)) else none
  match off (coreBase p) with
  | some r => some r
  | none => match s.roleOf p with
    | some l => off (aliasBase l)
    | none => none

/-- info of SE_ADDR for scalar memory and vector commands: slot 0xF, index 0xFFF (R251, R256). -/
def seAddrInfo : Nat := 0xF + 0xFFF * 16

/-- A scalar memory access of n bytes aligned to n at An + sext(off): the physical address, or SE_ADDR (R251). -/
def State.scalarAddr (s : State) (x : Ctx) (an : BitVec 4) (off : BitVec 16) (n : Nat) : Nat × Option Nat :=
  let a := ((s.ctx x).getA an.toNat + sext16 off).toNat
  (a, if a % n = 0 then s.ownScratch x a n else none)

end Sys2Proof.Machine
end

