-- ==== Sys2Proof/WellFormed.lean ====
section
/-! DEFINITION. Which operands the encodings of chapter 09 admit: reserved selectors, reserved field values and immediates
outside their stated range are ENCODING errors (R242, R243). -/

namespace Sys2Proof

/-- A selector that names a source (R243): 0x30 to 0x3F is reserved. -/
def selOk (v : BitVec 7) : Bool := decide (v.toNat < 0x30 ∨ 0x40 ≤ v.toNat)

/-- A selector that names a scalar or parameter register (R243). -/
def selSP (v : BitVec 7) : Bool := decide (v.toNat < 0x20 ∨ 0x40 ≤ v.toNat)

/-- Operand b names a source. -/
def BSrc.wf : BSrc → Bool
  | .sel v => selOk v
  | .imm _ => true

/-- A scalar ALU instruction names two sources. -/
def Alu.wf (f : Alu) : Bool := selOk f.sa && f.b.wf

/-- The LOOP selector names a scalar or parameter register. -/
def LoopCount.wf : LoopCount → Bool
  | .imm _ => true
  | .sel v => selSP v

/-- WAITPICK: an immediate is at least 1 (R224), a selector names a source. -/
def PickArg.wf : PickArg → Bool
  | .imm n => n.toNat != 0
  | .sel v => selOk v

/-- The CFG.GANG selector names a source. -/
def GangArg.wf : GangArg → Bool
  | .imm _ => true
  | .sel v => selOk v

/-- CFG.NUM: the immediate stat_mode 0b11 is an ENCODING error (R252). -/
def NumArg.wf : NumArg → Bool
  | .imm _ m => m.toNat != 3
  | .sel v => selOk v

/-- SE.XFER: with ireg = 1 bits [47:41] are 0. -/
def Xfer.wf (f : Xfer) : Bool := !f.ireg || decide (f.idx.toNat < 32)

/-- MPASS: target at most 4, pair at most 5, rsel a register or 0x3F, bits [30:28] of shf 0 on the integer pairs but bell-4, wslot 0
on reuse. A nonzero shf on a floating pair is for check IMMEDIATE (R255). -/
def MPass.wf (f : MPass) : Bool :=
  decide (f.target.toNat ≤ 4) && decide (f.pair.toNat ≤ 5) && decide (f.rsel.toNat < 0x20 ∨ f.rsel.toNat = 0x3F) &&
  (decide (2 ≤ f.pair.toNat) || decide (f.shf.toNat < 32)) && (f.new || f.wslot.toNat == 0)

/-- Operand b of a vector instruction names a source. -/
def VSrc.wf : VSrc → Bool
  | .arr _ => true
  | .sel v => selOk v

/-- Vector arithmetic in INT32 or FP32. -/
def Vop.wf (f : Vop) : Bool := f.b.wf

/-- Vector operations whose FP32 form is reserved. -/
def Vop.wfInt (f : Vop) : Bool := f.b.wf && !f.fp

/-- VCVTI, VCVTF and VCOPY: bkind 1 and selector 0 (R256). -/
def Vop.wfUn (f : Vop) : Bool := f.b == .sel 0

/-- REQ: stat and maxabs not reserved, [24:23] 0 for a scratchpad source. A reserved rnd is for check IMMEDIATE (R238). -/
def Req.wf (f : Req) : Bool :=
  (f.stat.toNat == 0 || decide (4 ≤ f.stat.toNat)) && f.maxabs.toNat != 4 &&
  (!f.srcMem || decide (f.src.toNat < 16))

/-- WCOMB: at least c0 is present (R258). -/
def Wcomb.wf (f : Wcomb) : Bool := f.c0.present

/-- POOL: divisor mode and output format not reserved; the fixed divisor only in mode 2, from 1. -/
def Pool.wf (f : Pool) : Bool :=
  f.divMode.toNat != 3 && f.ofmt.toNat != 3 && (if f.divMode.toNat = 2 then f.fdiv.toNat != 0 else f.fdiv.toNat == 0)

/-- DWCONV: weight format not reserved. -/
def Dwconv.wf (f : Dwconv) : Bool := f.wfmt.toNat != 3

/-- VMAXABS: [24:23] of src 0 for a scratchpad source. -/
def Vmaxabs.wf (f : Vmaxabs) : Bool := !f.srcMem || decide (f.src.toNat < 16)

/-- The operands of a command are ones its encoding admits. A command that is no weft instruction has no reserved operand:
its operands are numbers of units and register values, and out-of-range numbers name no unit. -/
def Instr.wf : Instr → Bool
  | .add _ f | .sub _ f | .mul _ f | .mulhs _ f | .mulhu _ f | .and _ f | .or _ f | .xor _ f | .shl _ f | .shr _ f
  | .sra _ f | .min _ f | .max _ f | .minu _ f | .maxu _ f | .slt _ f | .sltu _ f => f.wf
  | .loop _ c _ => c.wf
  | .waitpick _ n => n.wf
  | .phaseHint _ l _ => l.toNat != 3
  | .carryBegin _ r => r.toNat != 0
  | .adda _ _ _ v | .madda _ _ _ v _ | .movas _ _ v | .sst _ v _ _ => selOk v
  | .cfgGang _ v => v.wf
  | .cfgNum _ v => v.wf
  | .seXfer _ f => f.wf
  | .mpass _ f => f.wf
  | .vadd _ f | .vsub _ f | .vmul _ f | .vmin _ f | .vmax _ f => f.wf
  | .vand _ f | .vor _ f | .vxor _ f | .vshl _ f | .vsra _ f => f.wfInt
  | .vcvti _ f => f.wfUn && f.fp
  | .vcvtf _ f => f.wfUn && !f.fp
  | .vcopy _ f => f.wfUn
  | .req _ f => f.wf
  | .wcomb _ f => f.wf
  | .pool _ f => f.wf
  | .dwconv _ f => f.wf
  | .vmaxabs _ f => f.wf
  | _ => true

end Sys2Proof
end

