-- ==== Sys2Proof/Machine/Control.lean ====
section
/-! DEFINITION. The control instructions of weft (09_weft_reference.md, major 0x00; R224 to R227, R234, R247, R248, R397). -/

namespace Sys2Proof.Machine

/-- Outcome of a weft instruction. -/
abbrev Out := Host.Outcome State Fault Refusal

/-- NOP: none. -/
def execNop (x : Ctx) (s : State) : Out := issue x 0 0x00 true s (fun s => s.advance x)

/-- HALT: halts with reason HALT_INSN; a loose job ends DONE (R234, R273). -/
def execHalt (x : Ctx) (s : State) : Out :=
  issue x 0 0x01 true s (fun s =>
    match x with
    | .woven p => s.haltCore p.val haltInsn 0 0 false
    | .loose p k => match s.loosejob p.val k.val with
      | some j => s.endJob j endDone 0
      | none => s)

/-- JUMP: pc = target. -/
def execJump (x : Ctx) (target : BitVec 20) (s : State) : Out :=
  issue x 0 0x02 true s (fun s => s.goto x target.toNat)

/-- CALL: call(target) of R226; STACK with 4 entries. -/
def execCall (x : Ctx) (target : BitVec 20) (s : State) : Out :=
  issue x 0 0x03 true s (fun s =>
    let c := s.ctx x
    if c.sp = 4 then s.weftFault x haltStack 0 0
    else (s.setCtx x { c with stack := Tbl.set (fun _ => 0) c.stack c.sp (c.pc + 1), sp := c.sp + 1 }).goto x target.toNat)

/-- RET: ret() of R226; STACK with none, LOOP with an open loop of this call. -/
def execRet (x : Ctx) (s : State) : Out :=
  issue x 0 0x04 true s (fun s =>
    let c := s.ctx x
    if c.sp = 0 then s.weftFault x haltStack 1 0
    else if 0 < c.depth ∧ Tbl.get (fun _ => 0) c.lframe (c.depth - 1) = c.sp then s.weftFault x haltLoop 1 0
    else (s.setCtx x { c with sp := c.sp - 1 }).goto x (Tbl.get (fun _ => 0) c.stack (c.sp - 1)))

/-- LOOP: loop(count, end) of R226; LOOP with 4 active loops, a count of 0 skips the body. -/
def execLoop (x : Ctx) (count : LoopCount) (last : BitVec 20) (s : State) : Out :=
  issue x 0 0x05 count.wf s (fun s =>
    let c := s.ctx x
    let n : Word := match count with
      | .imm v => v.setWidth 32
      | .sel v => s.sel x v
    if c.depth = 4 then s.weftFault x haltLoop 0 0
    else if n = 0 then s.goto x (last.toNat + 1)
    else
      let c1 := { c with lc := Tbl.set (fun _ => 0) c.lc c.depth n, lstart := Tbl.set (fun _ => 0) c.lstart c.depth (c.pc + 1),
                         lend := Tbl.set (fun _ => 0) c.lend c.depth last.toNat,
                         lframe := Tbl.set (fun _ => 0) c.lframe c.depth c.sp }
      -- after_instruction_at(idx) sees the loop that has just opened, whose last instruction lies behind it
      (s.setCtx x { c1 with depth := c.depth + 1 }).goto x (c.pc + 1))

/-- The wait of WAITPICK ends: section n opens and the sequencer goes on (R224). -/
def State.openSection (s : State) (p : Fin 72) (n : Nat) : State :=
  ((s.modCore p.val (fun c => { c with lastWait := n, waitN := 0 })).setCoreState p.val 1 0).advance (.woven p)

/-- WAITPICK: PICK_ORDER unless the operand exceeds the one before and is at most T (R225); then the wait for pick offset n
(R224). A loose program may not hold it (R246). -/
def execWaitpick (x : Ctx) (n : PickArg) (s : State) : Out :=
  issue x 0 0x06 (n.wf && !isLoose x) s (fun s =>
    match x with
    | .loose _ _ => s
    | .woven p =>
      let v := match n with
        | .imm v => v.toNat
        | .sel v => (s.sel x v).toNat
      let t := s.coreTick p.val
      if v ≤ (s.core p.val).lastWait ∨ t < v then s.weftFault x haltPickOrder 0 (v % 2 ^ 20)
      else if v = t then (s.modCore p.val (fun c => { c with waitN := v })).setCoreState p.val 2 4
      else if v ≤ s.coreOffset p.val then s.openSection p v
      else (s.modCore p.val (fun c => { c with waitN := v })).setCoreState p.val 2 1)

/-- Barrier b of cluster g. -/
def State.barrier (s : State) (g b : Nat) : Option Barrier := Tbl.get (fun _ => none) s.weave.barriers (8 * g + b)

/-- Sets barrier b of cluster g. -/
def State.setBarrier (s : State) (g b : Nat) (v : Option Barrier) : State :=
  { s with weave := { s.weave with barriers := Tbl.set (fun _ => none) s.weave.barriers (8 * g + b) v } }

/-- Core p leaves the barrier it waits at and continues after its SYNC. -/
def State.leaveSync (s : State) (p : Nat) : State :=
  if h : p < 72 then
    ((s.modCore p (fun c => { c with syncAt := none })).setCoreState p 1 0).advance (.woven ⟨p, h⟩)
  else s

/-- The cores of cluster g that wait at barrier b. -/
def State.waitersAt (s : State) (g b : Nat) : List Nat :=
  ((List.range 9).map (physCore g)).filter (fun p => s.coreState p == 2 && (s.core p).syncAt == some b)

/-- SYNC: the barrier completes when every core of its mask has executed it; until then the core waits (R227). -/
def execSync (x : Ctx) (barrier : BitVec 3) (mask : BitVec 8) (s : State) : Out :=
  match x with
  | .loose _ _ => issue x 0 0x07 false s (fun s => s)
  | .woven p =>
    let own := match s.roleOf p.val with
      | some l => mask.toNat.testBit (l % 8)
      | none => true
    issue x 0 0x07 own s (fun s =>
      match s.roleOf p.val with
      | none => s.advance x
      | some l =>
        let g := l / 8
        let b := barrier.toNat
        let old := (s.barrier g b).getD ⟨mask.toNat, 0, false, s.pickNow⟩
        let arr := old.arrived ||| 2 ^ (l % 8)
        let s1 := s.setBarrier g b (some { old with arrived := arr })
        if old.mask &&& arr = old.mask then
          ((s1.waitersAt g b).foldl (fun t q => t.leaveSync q) s1).advance x
        else (s1.modCore p.val (fun c => { c with syncAt := some b })).setCoreState p.val 2 2)

end Sys2Proof.Machine
end

