-- ==== Sys2Proof/Machine/Crc.lean ====
section
/-! DEFINITION. The cyclic redundancy checks of the device (00_scope.md R9). -/

namespace Sys2Proof.Machine

/-- n shifts of a reflected CRC register. -/
def crcShift (poly : Nat) : Nat → Nat → Nat
  | 0, c => c
  | n + 1, c => crcShift poly n (if c % 2 = 1 then (c / 2) ^^^ poly else c / 2)

/-- A reflected 32-bit CRC over bytes: the register starts at all ones and the result is inverted. -/
def crcOf (poly : Nat) (bs : List Nat) : Nat :=
  (bs.foldl (fun c b => crcShift poly 8 (c ^^^ (b % 256))) 0xFFFFFFFF) ^^^ 0xFFFFFFFF

/-- CRC-32C: the Castagnoli polynomial, reflected (R9). -/
def crc32c (bs : List Nat) : Nat := crcOf 0x82F63B78 bs

/-- CRC-32 of IEEE 802.3, the frame check sequence. -/
def crc32 (bs : List Nat) : Nat := crcOf 0xEDB88320 bs

end Sys2Proof.Machine
end

