-- ==== Sys2Proof/Machine/DramMap.lean ====
section
/-! DEFINITION. The address decode of the DRAM controller (13_dram_controller.md R336 to R338) and the lines that read as
uncorrectable (R335, R343, R358, R359). -/

namespace Sys2Proof.Machine

/-- XOR of the bits of a number below 2^40. -/
def parity (x : Nat) : Nat := (setBits x 40).length % 2

/-- Hash mask i of the channel (false) or bank (true) bits, with its bits [39:32]. -/
def State.hashMask (s : State) (bank : Bool) (i : Nat) : Nat :=
  if bank then s.regN (Reg.DMC_BKHASH0 + 4 * i) + s.fld Reg.DMC_BKHASH_HI (8 * i) 8 * 2 ^ 32
  else s.regN (Reg.DMC_CHHASH0 + 4 * i) + s.fld Reg.DMC_CHHASH_HI (8 * i) 8 * 2 ^ 32

/-- Where a line lies: channel, rank, bank, data row, column, check row and check byte (R337). -/
structure DramPlace where
  ch : Nat
  rank : Nat
  bank : Nat
  row : Nat
  col : Nat
  crow : Nat
  cbyte : Nat
  deriving DecidableEq, Repr

/-- decode(a) of R337. -/
def State.dramDecode (s : State) (a : Nat) : DramPlace :=
  let four := fun (bank : Bool) => (List.range 4).foldl (fun v i => v + parity (a &&& s.hashMask bank i) * 2 ^ i) 0
  let col := field a 7 2 + 4 * field a 13 2
  let two := s.fld Reg.DMC_CFG 0 2 == 2
  let r := if two then a / 2 ^ 20 else a / 2 ^ 19
  { ch := four false, rank := if two then field a 19 1 else 0, bank := four true, row := 9 * (r / 8) + r % 8, col := col,
    crow := 9 * (r / 8) + 8, cbyte := (2 * (r % 8) + col / 8) * 128 + col % 8 * 16 }

/-- The lines whose flag an unlisted entry of badLines gives. -/
def badDefault (raw : Bool) (l : Nat) : Bool := raw && decide (l < 2 ^ 29)

/-- Line l reads as uncorrectable: it is marked so, nothing has written it since power-on, or its channel is faulty. -/
def State.lineBad (s : State) (l : Nat) : Bool :=
  Tbl.get (badDefault s.dram.raw) s.badLines l ||
    (decide (l < 2 ^ 29) && s.regN Reg.DMC_FAULT != 0 && s.bit Reg.DMC_FAULT (s.dramDecode (128 * l)).ch)

/-- Marks line l. -/
def State.markLine (s : State) (l : Nat) (bad : Bool) : State :=
  { s with badLines := Tbl.set (badDefault s.dram.raw) s.badLines l bad }

/-- A DRAM address whose channel is faulty: writes are discarded (R358). -/
def State.chanDead (s : State) (a : Nat) : Bool :=
  decide (a < 0x1000000000) && s.regN Reg.DMC_FAULT != 0 && s.bit Reg.DMC_FAULT (s.dramDecode a).ch

end Sys2Proof.Machine
end

