-- ==== Sys2Proof/Machine/Formats.lean ====
section
/-! DEFINITION. Number formats, conversions and the arithmetic of the vector engine (04_number_formats.md R103 to R115,
R118 to R121, R123; 05_quantisation.md R140, R144). Everything here is a function of values; state is elsewhere. -/

namespace Sys2Proof.Machine

/-! ### Integers -/

/-- round_half_even of m / 2^k for a natural m. -/
def rheShift (m k : Nat) : Nat :=
  if k = 0 then m
  else
    let f := m / 2 ^ k
    let r := m % 2 ^ k
    let half := 2 ^ (k - 1)
    if r < half then f else if half < r then f + 1 else f + f % 2

/-- round_shift of R144: rnd 0 half even, 1 half up, 2 floor. Division by a positive number is floor division. -/
def roundShift (p : Int) (sh rnd : Nat) : Int :=
  if sh = 0 then p
  else
    let f := p / (2 ^ sh : Nat)
    let rem := p % (2 ^ sh : Nat)
    let half : Int := (2 ^ (sh - 1) : Nat)
    if rnd = 2 ∨ rem < half then f
    else if half < rem ∨ rnd = 1 then f + 1
    else f + f % 2

/-- sat(x, lo, hi) of the pseudocode conventions (00). -/
def clampInt (x lo hi : Int) : Int := if x < lo then lo else if hi < x then hi else x

/-- The integer formats of R103 by signedness and width. -/
structure IFmt where
  signed : Bool
  bits   : Nat
  deriving DecidableEq, Repr

/-- Least value of an integer format. -/
def IFmt.lo (f : IFmt) : Int := if f.signed then -((2 ^ (f.bits - 1) : Nat) : Int) else 0

/-- Largest value of an integer format. -/
def IFmt.hi (f : IFmt) : Int := if f.signed then ((2 ^ (f.bits - 1) : Nat) : Int) - 1 else ((2 ^ f.bits : Nat) : Int) - 1

/-- The two's complement or unsigned bits of a value (R103). -/
def intBits (bits : Nat) (x : Int) : Nat := (x % ((2 ^ bits : Nat) : Int)).toNat

/-- The value of bits read in an integer format (R112: exact widening). -/
def intOf (f : IFmt) (b : Nat) : Int :=
  if f.signed ∧ 2 ^ (f.bits - 1) ≤ b % 2 ^ f.bits then ((b % 2 ^ f.bits : Nat) : Int) - ((2 ^ f.bits : Nat) : Int)
  else ((b % 2 ^ f.bits : Nat) : Int)

/-- narrow_int of R110: the value and whether the element counts as saturated. -/
def narrowInt (x lo hi : Int) (n : Nat) (sat : Bool) : Int × Bool :=
  if lo ≤ x ∧ x ≤ hi then (x, false)
  else if sat then (clampInt x lo hi, true)
  else ((x - lo) % ((2 ^ n : Nat) : Int) + lo, true)

/-- wrap32 of R84: two's complement modulo 2^32. -/
def wrap32 (x : Int) : Int := intOf ⟨true, 32⟩ (intBits 32 x)

/-- Whether a value lies in INT32. -/
def inInt32 (x : Int) : Bool := decide (-(2147483648 : Int) ≤ x ∧ x ≤ 2147483647)

/-! ### Floating point -/

/-- A floating-point format of R105. e4m3: exponent field 15 holds normal values but for the NaN pattern. -/
structure FFmt where
  ebits : Nat
  mbits : Nat
  bias  : Nat
  e4m3  : Bool
  deriving DecidableEq, Repr

def fpE4M3 : FFmt := ⟨4, 3, 7, true⟩
def fpE5M2 : FFmt := ⟨5, 2, 15, false⟩
def fp16 : FFmt := ⟨5, 10, 15, false⟩
def bf16 : FFmt := ⟨8, 7, 127, false⟩
def fp32 : FFmt := ⟨8, 23, 127, false⟩

/-- What an encoding stands for: NaN, an infinity, or (-1)^neg × m × 2^e. -/
inductive FVal where
  | nan
  | inf (neg : Bool)
  | fin (neg : Bool) (m : Nat) (e : Int)
  deriving DecidableEq, Repr

/-- Bits of a value in the format, sign apart. -/
def FFmt.width (f : FFmt) : Nat := 1 + f.ebits + f.mbits

/-- emin = 1 − bias (R111). -/
def FFmt.emin (f : FFmt) : Int := 1 - (f.bias : Int)

/-- Canonical NaN written (R106). -/
def FFmt.canonNan (f : FFmt) : Nat :=
  if f.e4m3 then 0x7F else (2 ^ f.ebits - 1) * 2 ^ f.mbits + 2 ^ (f.mbits - 1)

/-- Encoding of +infinity (formats that have one). -/
def FFmt.infBits (f : FFmt) : Nat := (2 ^ f.ebits - 1) * 2 ^ f.mbits

/-- Encoding of the largest finite value (R105): 448 in E4M3. -/
def FFmt.maxBits (f : FFmt) : Nat := if f.e4m3 then 0x7E else f.infBits - 1

/-- Sign bit of a format. -/
def FFmt.signBit (f : FFmt) (neg : Bool) : Nat := if neg then 2 ^ (f.ebits + f.mbits) else 0

/-- Reads an encoding (R105, R106). -/
def decodeF (f : FFmt) (b : Nat) : FVal :=
  let neg := decide (b / 2 ^ (f.ebits + f.mbits) % 2 = 1)
  let ex := b / 2 ^ f.mbits % 2 ^ f.ebits
  let m := b % 2 ^ f.mbits
  if f.e4m3 ∧ ex = 15 ∧ m = 7 then .nan
  else if ¬ f.e4m3 ∧ ex = 2 ^ f.ebits - 1 then (if m = 0 then .inf neg else .nan)
  else if ex = 0 then .fin neg m (f.emin - (f.mbits : Int))
  else .fin neg (2 ^ f.mbits + m) ((ex : Int) - (f.bias : Int) - (f.mbits : Int))

/-- The magnitude m × 2^e rounded half even to the format's grid, in units of its smallest subnormal. -/
def roundUnits (f : FFmt) (m : Nat) (e : Int) : Nat :=
  if m = 0 then 0
  else
    let top : Int := (Nat.log2 m : Int) + e
    let q : Int := max top f.emin - (f.mbits : Int)
    let mi := if q ≤ e then m * 2 ^ (e - q).toNat else rheShift m (q - e).toNat
    mi * 2 ^ (q - (f.emin - (f.mbits : Int))).toNat

/-- Encoding of a magnitude given in units of the smallest subnormal; it must not exceed the largest finite value. -/
def encodeUnits (f : FFmt) (u : Nat) : Nat :=
  if u < 2 ^ f.mbits then u
  else
    let k := Nat.log2 u - f.mbits
    (k + 1) * 2 ^ f.mbits + (u / 2 ^ k - 2 ^ f.mbits)

/-- Units of the largest finite value. -/
def FFmt.maxUnits (f : FFmt) : Nat :=
  match decodeF f f.maxBits with
  | .fin _ m e => m * 2 ^ (e - (f.emin - (f.mbits : Int))).toNat
  | _ => 0

/-- The binary32 encoding nearest (half even) to (-1)^neg × m × 2^e; beyond the range an infinity (R114). -/
def roundFp32 (neg : Bool) (m : Nat) (e : Int) : Nat :=
  let u := roundUnits fp32 m e
  fp32.signBit neg + (if fp32.maxUnits < u then fp32.infBits else encodeUnits fp32 u)

/-- Whether binary32 bits are a subnormal. -/
def isSub32 (b : Nat) : Bool := decide (b / 2 ^ 23 % 256 = 0 ∧ b % 2 ^ 23 ≠ 0)

/-- Whether an encoding of a format is a subnormal. -/
def isSubF (f : FFmt) (b : Nat) : Bool := decide (b / 2 ^ f.mbits % 2 ^ f.ebits = 0 ∧ b % 2 ^ f.mbits ≠ 0)

/-- ftz of R115 on binary32 bits: the value and whether it was flushed. -/
def flush32 (ftz : Bool) (b : Nat) : Nat × Bool :=
  if ftz ∧ isSub32 b then (fp32.signBit (decide (b / 2 ^ 31 % 2 = 1)), true) else (b, false)

def nan32 : Nat := 0x7FC00000

/-- Exact sum of two finite values as a signed multiple of 2^e. -/
def alignSum (an : Bool) (am : Nat) (ae : Int) (bn : Bool) (bm : Nat) (be : Int) : Int × Int :=
  let e := min ae be
  let x : Int := (am * 2 ^ (ae - e).toNat : Nat)
  let y : Int := (bm * 2 ^ (be - e).toNat : Nat)
  ((if an then -x else x) + (if bn then -y else y), e)

/-- binary32 addition with round_half_even on unflushed operands (R114). -/
def fadd0 (a b : Nat) : Nat :=
  match decodeF fp32 a, decodeF fp32 b with
  | .nan, _ => nan32
  | _, .nan => nan32
  | .inf s, .inf t => if s = t then fp32.signBit s + fp32.infBits else nan32
  | .inf s, _ => fp32.signBit s + fp32.infBits
  | _, .inf t => fp32.signBit t + fp32.infBits
  | .fin an am ae, .fin bn bm be =>
    if am = 0 ∧ bm = 0 then fp32.signBit (an && bn)
    else
      let r := alignSum an am ae bn bm be
      if r.1 = 0 then 0 else roundFp32 (decide (r.1 < 0)) r.1.natAbs r.2

/-- binary32 multiplication with round_half_even on unflushed operands (R114). -/
def fmul0 (a b : Nat) : Nat :=
  match decodeF fp32 a, decodeF fp32 b with
  | .nan, _ => nan32
  | _, .nan => nan32
  | .inf s, .inf t => fp32.signBit (s != t) + fp32.infBits
  | .inf s, .fin t m _ => if m = 0 then nan32 else fp32.signBit (s != t) + fp32.infBits
  | .fin s m _, .inf t => if m = 0 then nan32 else fp32.signBit (s != t) + fp32.infBits
  | .fin an am ae, .fin bn bm be =>
    if am = 0 ∨ bm = 0 then fp32.signBit (an != bn) else roundFp32 (an != bn) (am * bm) (ae + be)

/-- fp32_add of R144: operands and result under R115; the flag says that something was flushed. -/
def fadd (ftz : Bool) (a b : Nat) : Nat × Bool :=
  let x := flush32 ftz a
  let y := flush32 ftz b
  let r := flush32 ftz (fadd0 x.1 y.1)
  (r.1, x.2 || y.2 || r.2)

/-- fp32_mul of R144. -/
def fmul (ftz : Bool) (a b : Nat) : Nat × Bool :=
  let x := flush32 ftz a
  let y := flush32 ftz b
  let r := flush32 ftz (fmul0 x.1 y.1)
  (r.1, x.2 || y.2 || r.2)

/-- Negation of binary32 bits; NaN becomes canonical. -/
def fneg (a : Nat) : Nat := if decodeF fp32 a = .nan then nan32 else if a / 2 ^ 31 % 2 = 1 then a - 2 ^ 31 else a + 2 ^ 31

/-- a − b. -/
def fsub (ftz : Bool) (a b : Nat) : Nat × Bool := fadd ftz a (fneg b)

/-- Whether binary32 bits are a NaN. -/
def isNan32 (b : Nat) : Bool := decodeF fp32 b == .nan

/-- Total order key of a non-NaN binary32 value: −0 below +0 (R256). -/
def fkey (b : Nat) : Int := if b / 2 ^ 31 % 2 = 1 then -((b % 2 ^ 31 : Nat) : Int) - 1 else ((b : Nat) : Int)

/-- Minimum and maximum of R256: NaN if either is NaN; −0 below +0. -/
def fminmax (ftz : Bool) (mx : Bool) (a b : Nat) : Nat × Bool :=
  let x := flush32 ftz a
  let y := flush32 ftz b
  (if isNan32 x.1 || isNan32 y.1 then nan32
   else if (fkey x.1 ≤ fkey y.1) ≠ (mx = true) then x.1 else y.1, x.2 || y.2)

/-- to_fp32 of R144: an integer to binary32, round_half_even. -/
def intToF32 (x : Int) : Nat := if x = 0 then 0 else roundFp32 (decide (x < 0)) x.natAbs 0

/-- What a narrowing store of one element gives: the bits, and the counts of R110, R111. -/
structure Narrow where
  bits  : Nat
  sat   : Bool
  flush : Bool
  deriving DecidableEq, Repr

/-- narrow_float of R111 from binary32 bits. FP32 targets are unchanged but for the flush of R115. -/
def narrowFloat (f : FFmt) (sat ftz : Bool) (x : Nat) : Narrow :=
  let fl := ftz && isSub32 x
  match decodeF fp32 x with
  | .nan => ⟨f.canonNan, false, false⟩
  | .inf s =>
    if f = fp32 then ⟨x, false, false⟩
    else if ¬ f.e4m3 ∧ ¬ sat then ⟨f.signBit s + f.infBits, false, false⟩
    else if sat then ⟨f.signBit s + f.maxBits, true, false⟩
    else ⟨f.canonNan, true, false⟩
  | .fin s m e =>
    if m = 0 ∨ fl then ⟨f.signBit s, false, fl⟩
    else
      let u := roundUnits f m e
      if f.maxUnits < u then
        (if sat then ⟨f.signBit s + f.maxBits, true, false⟩
         else if f.e4m3 then ⟨f.canonNan, true, false⟩
         else ⟨f.signBit s + f.infBits, true, false⟩)
      else if u ≠ 0 ∧ u < 2 ^ f.mbits ∧ ftz then ⟨f.signBit s, false, true⟩
      else ⟨f.signBit s + encodeUnits f u, false, false⟩

/-- Widening of R112 to binary32; the second value: flushed under ftz; the third: a NaN was loaded. -/
def widenF (f : FFmt) (ftz : Bool) (b : Nat) : Nat × Bool × Bool :=
  match decodeF f b with
  | .nan => (nan32, false, true)
  | .inf s => (fp32.signBit s + fp32.infBits, false, false)
  | .fin s m e =>
    if ftz ∧ isSubF f b then (fp32.signBit s, true, false)
    else (roundFp32 s m e, false, false)

/-- round_to_int of R144 for a finite value; NaN and infinities are the caller's (R113). -/
def roundToInt (neg : Bool) (m : Nat) (e : Int) (rnd : Nat) : Int :=
  let v : Int := if neg then -(m : Int) else m
  if 0 ≤ e then v * ((2 ^ e.toNat : Nat) : Int) else roundShift v (-e).toNat rnd

/-- Conversion of a floating value to an integer range under R113, round_half_even, saturating (VCVTI). -/
def fToInt (ftz : Bool) (x : Nat) (lo hi : Int) (n : Nat) (sat : Bool) : Int × Bool × Bool :=
  let y := flush32 ftz x
  match decodeF fp32 y.1 with
  | .nan => (0, true, y.2)
  | .inf s => (if s then lo else hi, true, y.2)
  | .fin s m e =>
    let r := narrowInt (roundToInt s m e 0) lo hi n sat
    (r.1, r.2, y.2)

/-- floor(log2 |x|) of a nonzero finite value. -/
def floorLog2 (m : Nat) (e : Int) : Int := (Nat.log2 m : Int) + e

/-! ### Pieces (R118, R123) -/

/-- Piece i of an INT16 or INT24 activation: low pieces unsigned, the top piece signed (R118). -/
def actPiece (bits i : Nat) (b : Nat) : Int :=
  if (i + 1) * 8 = bits then intOf ⟨true, 8⟩ (b / 2 ^ (8 * i) % 256) else ((b / 2 ^ (8 * i) % 256 : Nat) : Int)

/-- The BF16 pieces of a binary32 value by truncation (R123). -/
def bfPieces (x : Nat) : Nat × Nat × Nat :=
  match decodeF fp32 x with
  | .nan => (0x7FC0, 0, 0)
  | .inf s => (bf16.signBit s + bf16.infBits, 0, 0)
  | .fin s m _ =>
    if m = 0 then (bf16.signBit s, bf16.signBit s, bf16.signBit s)
    else
      let x0 := x / 65536
      let r1 := fadd0 x (fneg (x0 * 65536))
      let x1 := r1 / 65536
      let r2 := fadd0 r1 (fneg (x1 * 65536))
      (x0, x1, r2 / 65536)

/-! ### Bell-4 (R140) and combination (R121) -/

/-- Bell-4 level of a code. -/
def bell4Level (c : Nat) : Int :=
  match c % 16 with
  | 0x0 => 22 | 0x1 => 65 | 0x2 => 111 | 0x3 => 159 | 0x4 => 213 | 0x5 => 278 | 0x6 => 362 | 0x7 => 512
  | 0x8 => 0 | 0x9 => -65 | 0xA => -111 | 0xB => -159 | 0xC => -213 | 0xD => -278 | 0xE => -362 | _ => -512

/-- wcomb of R121: the INT32 result and whether it saturated or wrapped. -/
def wcomb (t0 t8 t16 : Int) (sh : Nat) (sat : Bool) : Int × Bool :=
  let y := t16 * 65536 + t8 * 256 + t0
  narrowInt (roundShift y sh 0) (-2147483648) 2147483647 32 sat

/-! ### Requantisation (R143, R144) -/

/-- Targets of REQ (R257, field tgt). -/
inductive ReqTgt where
  | int (f : IFmt)
  | flt (f : FFmt)
  deriving DecidableEq, Repr

/-- tgt field 0 to 7. -/
def reqTgt (t : Nat) : ReqTgt :=
  match t with
  | 0 => .int ⟨false, 8⟩
  | 1 => .int ⟨true, 8⟩
  | 2 => .int ⟨false, 4⟩
  | 3 => .int ⟨true, 4⟩
  | 4 => .flt fpE4M3
  | 5 => .flt fpE5M2
  | 6 => .flt fp16
  | _ => .flt bf16

/-- One 16-byte parameter entry as its four words (R143). -/
structure ReqEntry where
  w0 : Nat
  w1 : Nat
  w2 : Nat
  w3 : Nat
  deriving DecidableEq, Repr

/-- shift: bits [5:0] of byte 8. -/
def ReqEntry.shift (e : ReqEntry) : Nat := e.w2 % 64

/-- zp by target: byte 9, its low nibble for UINT4, 0 for the signed formats (R143). -/
def ReqEntry.zp (e : ReqEntry) (f : IFmt) : Int :=
  if f.signed then 0 else ((e.w2 / 256 % 2 ^ f.bits : Nat) : Int)

def ReqEntry.clampLo (e : ReqEntry) : Int := intOf ⟨true, 16⟩ (e.w2 / 65536)
def ReqEntry.clampHi (e : ReqEntry) : Int := intOf ⟨true, 16⟩ (e.w3 % 65536)

/-- The activation bound of finish_int: max(min(q, hi), lo). -/
def ReqEntry.bound (e : ReqEntry) (q : Int) : Int :=
  let a := if e.clampHi < q then e.clampHi else q
  if a < e.clampLo then e.clampLo else a

/-- What REQ computes for one element: the stored bits, the counts, whether an operand or result was flushed inside the
vector engine (sticky only, R115), and y of R144 for the max-abs key with at = 1. -/
structure ReqOut where
  bits  : Nat
  sat   : Bool
  flush : Bool
  stick : Bool
  y     : Int
  yf    : Nat
  deriving DecidableEq, Repr

/-- REQ of one element (R144): accF, the source is read as binary32. -/
def reqElem (accF : Bool) (acc : Nat) (e : ReqEntry) (tgt : ReqTgt) (rnd : Nat) (sat ftz : Bool) : ReqOut :=
  let accI := intOf ⟨true, 32⟩ acc
  let biasI := intOf ⟨true, 32⟩ e.w0
  let yI := accI + biasI
  let yF := fadd ftz acc e.w0
  match tgt with
  | .int f =>
    if accF then
      let z := fmul ftz yF.1 e.w1
      let st := yF.2 || z.2
      match decodeF fp32 z.1 with
      | .nan =>
        let r := narrowInt (e.bound (e.zp f)) f.lo f.hi f.bits sat
        ⟨intBits f.bits r.1, true, false, st, 0, yF.1⟩
      | .inf s =>
        let q := if s then f.lo else f.hi
        let r := narrowInt (e.bound q) f.lo f.hi f.bits true
        ⟨intBits f.bits r.1, true, false, st, 0, yF.1⟩
      | .fin s m ex =>
        let r := narrowInt (e.bound (roundToInt s m ex rnd + e.zp f)) f.lo f.hi f.bits sat
        ⟨intBits f.bits r.1, r.2, false, st, 0, yF.1⟩
    else
      let p := yI * intOf ⟨true, 32⟩ e.w1
      let r := narrowInt (e.bound (roundShift p e.shift rnd + e.zp f)) f.lo f.hi f.bits sat
      ⟨intBits f.bits r.1, r.2, false, false, yI, 0⟩
  | .flt f =>
    let y := if accF then yF else (intToF32 yI, false)
    let z := fmul ftz y.1 e.w1
    let r := narrowFloat f sat ftz z.1
    ⟨r.bits, r.sat, r.flush, y.2 || z.2, if accF then 0 else yI, yF.1⟩

/-- Max-abs key of an integer (R148). -/
def keyInt (x : Int) : Nat := min x.natAbs 0xFFFFFFFF

/-- Max-abs key of a binary32 value; none for a NaN. -/
def keyF32 (b : Nat) : Option Nat := if isNan32 b then none else some (b % 2 ^ 31)

/-- Word of the exponent histogram for an integer element (R127). -/
def histInt (x hb : Int) : Nat :=
  if x = 0 then 0 else (clampInt ((Nat.log2 x.natAbs : Int) - hb + 1) 1 62).toNat

/-- Word of the exponent histogram for a floating element as stored (R127). -/
def histF (f : FFmt) (b : Nat) (hb : Int) : Nat :=
  match decodeF f b with
  | .nan => 63
  | .inf _ => 63
  | .fin _ m e => if m = 0 then 0 else (clampInt (floorLog2 m e - hb + 1) 1 62).toNat

end Sys2Proof.Machine
end

