-- ==== Sys2Proof/Machine/Flags.lean ====
section
/-! DEFINITION. What a command leaves beside its values: poison and numerics tags (06_memory_system.md R174, R524; 04 R130),
the sticky numerics flags, the statistics slots (04 R126 to R132) and the max-abs registers (05 R148 to R152). -/

namespace Sys2Proof.Machine

/-! ### Tags -/

/-- Precedence of the causes (R174): UNCORRECTABLE, then STALE_ROLE, then MISSING_INPUT. -/
def Poison.rank : Poison → Nat
  | .clean => 0
  | .missing => 1
  | .stale => 2
  | .uncorrectable => 3

/-- The cause of highest precedence. -/
def Poison.worse (a b : Poison) : Poison := if a.rank < b.rank then b else a

/-- The carry regions behind two inputs together (R56). -/
def joinCarried (a b : Option Bool) : Option Bool :=
  match a, b with
  | none, y => y
  | x, none => x
  | some x, some y => some (x && y)

/-- The tag of what is computed from two tagged inputs (R130, R174). -/
def Tag.join (a b : Tag) : Tag := ⟨a.cause.worse b.cause, a.sat || b.sat, a.flush || b.flush, joinCarried a.carried b.carried⟩

/-- The join of tags. -/
def joinTags (l : List Tag) : Tag := l.foldl Tag.join Tag.clean

/-- A tag with a cause alone. -/
def Tag.ofCause (c : Poison) : Tag := ⟨c, false, false, none⟩

/-- Where an address of a core window carries a tag: the core and the key of its block or tile (R524). -/
def tagKey (a : Nat) : Option (Nat × Nat) :=
  if 0x1000000000 ≤ a ∧ a < 0x1090000000 then
    let p := (a - 0x1000000000) / 0x2000000
    let o := (a - 0x1000000000) % 0x2000000
    if o < 0x200000 then some (p, o / 512)
    else if 0x800000 ≤ o ∧ o < 0x840000 then some (p, 4096 + (o - 0x800000) / 4096)
    else none
  else none

/-- The tag of the block or tile at a key of a core. -/
def State.blockTag (s : State) (p k : Nat) : Tag := Tbl.get (fun _ => Tag.clean) (s.core p).tags k

/-- Sets the tag of a block or tile, counting it when it carries poison (R174). -/
def State.setBlockTag (s : State) (p k : Nat) (t : Tag) : State :=
  let s1 := s.modCore p (fun c => { c with tags := Tbl.set (fun _ => Tag.clean) c.tags k t })
  if t.cause = .clean then s1 else (s1.satAdd (Reg.CORE_SEPOISON p) 1).sticky (Reg.CORE_SESTAT p) 3

/-- The tag under which a byte of memory is read: its block's tag, or UNCORRECTABLE in a DRAM line that reads so (R359). -/
def State.tagAt (s : State) (a : Nat) : Tag :=
  match tagKey a with
  | some (p, k) => s.blockTag p k
  | none => if s.lineBad (a / 128) then Tag.ofCause .uncorrectable else Tag.clean

/-- The join of the tags of n bytes from an address of a core memory (blocks of 512 bytes or tiles). -/
def State.tagRange (s : State) (a n : Nat) : Tag :=
  joinTags ((List.range ((a % 512 + n + 511) / 512)).map (fun i => s.tagAt (a - a % 512 + 512 * i)))

/-- The keys that n bytes from an address touch, each with whether all of it is written. -/
def touchedKeys (a n : Nat) : List (Nat × Nat × Bool) :=
  let g := match tagKey a with
    | some (_, k) => if k < 4096 then 512 else 4096
    | none => 512
  ((List.range ((a % g + n + g - 1) / g)).filterMap (fun i =>
    let b := a - a % g + g * i
    (tagKey b).map (fun pk => (pk.1, pk.2, decide (a ≤ b ∧ b + g ≤ a + n)))))

/-- A command tags what it wrote from an address: a block written whole takes its tag, a block written in part the join
with the tag before (R524). -/
def State.tagWrite (s : State) (a n : Nat) (t : Tag) : State :=
  (touchedKeys a n).foldl (fun u (p, k, whole) =>
    u.setBlockTag p k (if whole then t else t.join (u.blockTag p k))) s

/-! ### Numerics flags (Table, CORE_NUMSTAT fields) -/

/-- What the elements of a command did in conversions and arithmetic. -/
structure NumFx where
  sat : Nat
  flush : Nat
  stick : Bool
  nanIn : Bool
  nanOut : Bool
  infOut : Bool
  deriving DecidableEq, Repr

/-- Nothing to flag. -/
def NumFx.none : NumFx := ⟨0, 0, false, false, false, false⟩

/-- The effects of two groups of elements. -/
def NumFx.add (a b : NumFx) : NumFx :=
  ⟨a.sat + b.sat, a.flush + b.flush, a.stick || b.stick, a.nanIn || b.nanIn, a.nanOut || b.nanOut, a.infOut || b.infOut⟩

/-- Sets the sticky numerics flags of core p. -/
def State.numFlags (s : State) (p : Nat) (f : NumFx) : State :=
  let r := Reg.CORE_NUMSTAT p
  ((((s.stickyIf (decide (0 < f.sat)) r 0).stickyIf (decide (0 < f.flush) || f.stick) r 1).stickyIf f.nanIn r 2).stickyIf
    f.nanOut r 3).stickyIf f.infOut r 4

/-- The numerics bits of a tag that a command gives in the stat_mode in force (R130). -/
def State.numTag (s : State) (p : Nat) (f : NumFx) : Tag :=
  if (s.core p).statMode = 2 then ⟨.clean, decide (0 < f.sat), decide (0 < f.flush), none⟩ else Tag.clean

/-! ### Statistics slots (R126 to R132) -/

/-- Word w of statistics slot k of core p. -/
abbrev statWord (p k w : Nat) : Nat := Reg.CORE_STAT p (64 * k + w)

/-- One counted element of a store: the value as stored, and the counts of its conversion. -/
structure Counted where
  flt : Option FFmt
  int : Option IFmt
  bits : Nat
  sat : Bool
  flush : Bool
  deriving DecidableEq, Repr

/-- Histogram word of a counted element (R127). -/
def Counted.word (c : Counted) (hb : Int) : Nat :=
  match c.flt, c.int with
  | some f, _ => histF f c.bits hb
  | none, some f => histInt (intOf f c.bits) hb
  | none, none => 0

/-- Sign of an 8-bit value. -/
def sext8 (v : Nat) : Int := intOf ⟨true, 8⟩ v

/-- A command names statistics slot k with its elements (R127, R128): in histogram mode each element counts in a word, with
a base that no encoding carries (a free value); in counter mode the command adds to five words. -/
def State.statistics (s : State) (p k : Nat) (es : List Counted) : State :=
  let mode := (s.core p).statMode
  if mode = 0 then s
  else
    let nsat := (es.filter (fun e => e.sat)).length
    let nfl := (es.filter (fun e => e.flush)).length
    let s1 := if mode = 1 then
        let r := s.free 8
        es.foldl (fun u e => u.satAdd (statWord p k (e.word (sext8 r.1))) 1) r.2
      else
        let a := ((s.satAdd (statWord p k 0) nsat).satAdd (statWord p k 1) nfl).satAdd (statWord p k 2) 1
        let b := if nsat = 0 then a else a.satAdd (statWord p k 3) 1
        let c := if nfl = 0 then b else b.satAdd (statWord p k 4) 1
        (c.satAdd (Reg.CORE_SATCNT p) nsat).satAdd (Reg.CORE_FLUSHCNT p) nfl
    s1.modCore p (fun c => { c with
      statElems := Tbl.set (fun _ => 0) c.statElems k
        (BitVec.ofNat 32 (min ((Tbl.get (fun _ => 0) c.statElems k).toNat + es.length) 0xFFFFFFFF)),
      statCmds := Tbl.set (fun _ => 0) c.statCmds k
        (BitVec.ofNat 32 (min ((Tbl.get (fun _ => 0) c.statCmds k).toNat + 1) 0xFFFFFFFF)) })

/-- Clears statistics slot k. -/
def State.clearStat (s : State) (p k : Nat) (part : Bool) : State :=
  (s.clearRegs (statWord p k 0) (statWord p k 64)).modCore p (fun c => { c with
    statElems := Tbl.set (fun _ => 0) c.statElems k 0, statCmds := Tbl.set (fun _ => 0) c.statCmds k 0,
    statPartial := Tbl.set (fun _ => false) c.statPartial k part })

/-- Clears the four slots and marks them partial (R116, R132). -/
def State.clearStats (s : State) (p : Nat) : State :=
  (((s.clearStat p 0 true).clearStat p 1 true).clearStat p 2 true).clearStat p 3 true

/-! ### Max-abs registers (R148 to R152) -/

/-- A max-abs key: its kind (floating or integer) and its value; none for a NaN. -/
abbrev Key := Bool × Option Nat

/-- Updates one max-abs register under its bank's kind (R149): reg holds the key, kind and valid are bits of
CORE_MAXABS_STAT. -/
def State.maxKey (s : State) (p reg kind : Nat) (flt : Bool) (v : Nat) : State :=
  let st := Reg.CORE_MAXABS_STAT p
  if s.bit st (kind + 1) && s.bit st kind != flt then s.sticky st 8
  else ((s.putBit st kind flt).sticky st (kind + 1)).setRegN reg (max (s.regN reg) v)

/-- The max-abs update of one element: what is 1 for tensor, 2 for channel, 3 for both; ch is the channel index. -/
def State.maxAbs (s : State) (p what ch : Nat) (k : Key) : State :=
  match k.2 with
  | none => s.sticky (Reg.CORE_MAXABS_STAT p) 10
  | some v =>
    let s1 := if what % 2 = 1 then s.maxKey p (Reg.CORE_MAXABS_T p) 0 k.1 v else s
    if 2 ≤ what then
      (if 128 ≤ ch then s1.sticky (Reg.CORE_MAXABS_STAT p) 9 else s1.maxKey p (Reg.CORE_MAXABS_C p ch) 2 k.1 v)
    else s1

/-- Clears the per-tensor register, the channel bank, or both, and partial (R151). -/
def State.clearMax (s : State) (p : Nat) (tensor channels : Bool) : State :=
  let st := Reg.CORE_MAXABS_STAT p
  let s1 := if tensor then (s.setRegN (Reg.CORE_MAXABS_T p) 0).setFld st 0 2 0 else s
  let s2 := if channels then (s1.clearRegs (Reg.CORE_MAXABS_C p 0) (Reg.CORE_MAXABS_C p 128)).setFld st 2 2 0 else s1
  if tensor || channels then s2.putBit st 11 false else s2

end Sys2Proof.Machine
end

