-- ==== Sys2Proof/Machine/Stream.lean ====
section
/-! DEFINITION. The stream engine (06_memory_system.md R157 to R189, 04 R108 to R112, 09 R253, R254): descriptors and their
copies, address generation, the load and store paths, and the transfer kinds. -/

namespace Sys2Proof.Machine

/-! ### Descriptors (R167) -/

/-- n bytes at an offset of a byte list, little-endian. -/
def sub (b : List Nat) (o n : Nat) : Nat := leVal ((b.drop o).take n)

/-- The fields of a descriptor's 64 bytes. -/
def Desc.ofBytes (b : List Nat) : Desc :=
  { base := sub b 0 5, kind := sub b 5 1, fmtMem := sub b 6 1, fmtEng := sub b 7 1,
    stride := (List.range 4).map (fun i => intOf ⟨true, 32⟩ (sub b (8 + 4 * i) 4)),
    cnt := (List.range 5).map (fun i => sub b (24 + 2 * i) 2),
    wrap := (List.range 4).map (fun i => sub b (34 + 2 * i) 2),
    pad := sub b 42 2, aux := sub b 44 4, flags := sub b 48 2, strideXY := sub b 50 1, dilXY := sub b 51 1,
    padLo := sub b 52 1, piece := sub b 53 1, lead := sub b 54 2, rsvd := sub b 56 4 }

/-- The CRC-32C of a descriptor is right (R167). -/
def descCrcOk (b : List Nat) : Bool := crc32c (b.take 60) == sub b 60 4

def Desc.window (d : Desc) : Bool := nbit d.flags 0
def Desc.transpose (d : Desc) : Bool := nbit d.flags 1
def Desc.sat (d : Desc) : Bool := nbit d.flags 2
def Desc.space (d : Desc) : Nat := field d.flags 3 2
def Desc.cache (d : Desc) : Nat := field d.flags 5 2
def Desc.split (d : Desc) : Bool := nbit d.piece 2
def Desc.pieceIdx (d : Desc) : Nat := field d.piece 0 2

/-- Bits of a stored format (Table, Format codes). -/
def fmtBits (f : Nat) : Nat :=
  if f ≤ 2 then 4 else if f = 3 ∨ f = 4 ∨ f = 8 ∨ f = 9 then 8 else if f = 5 ∨ f = 0xA ∨ f = 0xB then 16
  else if f = 6 then 24 else 32

/-- The floating format of a code. -/
def fltOf (f : Nat) : Option FFmt :=
  match f with
  | 0x8 => some fpE4M3
  | 0x9 => some fpE5M2
  | 0xA => some fp16
  | 0xB => some bf16
  | 0xC => some fp32
  | _ => none

/-- The integer format of a code. -/
def intFmtOf (f : Nat) : Option IFmt :=
  match f with
  | 0x0 => some ⟨true, 4⟩
  | 0x1 => some ⟨false, 4⟩
  | 0x3 => some ⟨true, 8⟩
  | 0x4 => some ⟨false, 8⟩
  | 0x5 => some ⟨true, 16⟩
  | 0x6 => some ⟨true, 24⟩
  | 0x7 => some ⟨true, 32⟩
  | _ => none

/-- A load-path conversion of R108, to a matrix engine or to the vector engine. -/
def loadConv (d : Desc) : Bool :=
  if d.split then
    (match d.fmtMem, d.pieceIdx with
     | 0x5, 0 => d.fmtEng == 4
     | 0x5, 1 => d.fmtEng == 3
     | 0x6, 0 => d.fmtEng == 4
     | 0x6, 1 => d.fmtEng == 4
     | 0x6, 2 => d.fmtEng == 3
     | 0xC, i => decide (i ≤ 2) && d.fmtEng == 0xB
     | _, _ => false)
  else
    (d.fmtEng == d.fmtMem && d.fmtMem != 5 && d.fmtMem != 6) || (d.fmtMem == 0xC && d.fmtEng == 0xB) ||
    (d.fmtEng == 7 && (intFmtOf d.fmtMem).isSome) || (d.fmtEng == 0xC && (fltOf d.fmtMem).isSome)

/-- A store-path conversion of R108. -/
def storeConv (d : Desc) : Bool :=
  d.piece == 0 &&
  ((d.fmtEng == d.fmtMem && d.fmtMem != 2 && d.fmtMem != 5 && d.fmtMem != 6) ||
   (d.fmtEng == 7 && (d.fmtMem == 5 || d.fmtMem == 3)) ||
   (d.fmtEng == 0xC && (d.fmtMem == 0xB || d.fmtMem == 0xA || d.fmtMem == 8 || d.fmtMem == 9)))

/-- The descriptor names a kind, formats, flags and a conversion that the stream engine performs (R108, R167, R168, R170). -/
def Desc.ok (d : Desc) : Bool :=
  decide (d.kind ≤ 5) && decide (d.fmtMem ≤ 0xC) && decide (d.fmtEng ≤ 0xC) && d.rsvd == 0 && decide (d.flags < 256) &&
  d.space != 3 && d.cache != 3 && decide (d.piece < 8) && (d.split || d.pieceIdx == 0) &&
  (d.window || (d.strideXY == 0 && d.dilXY == 0 && d.padLo == 0)) &&
  (match d.kind with
   | 1 => !d.window && decide (d.aux < 0x200000) && d.aux % 4 == 0
   | 5 => d.aux == field d.aux 0 6 + field d.aux 8 6 * 0x100 + field d.aux 16 4 * 0x10000
   | _ => d.aux == 0) &&
  (!d.transpose || (decide (fmtBits d.fmtMem ≤ 16) && !d.window && (d.kind == 0 || d.kind == 3) &&
    (d.cnt.getD 0 0 + 1) % 32 == 0 && (d.cnt.getD 1 0 + 1) % 32 == 0)) &&
  (match d.kind with
   | 0 => loadConv d
   | 1 => loadConv d
   | 2 => storeConv d
   | _ => d.fmtEng == d.fmtMem && d.piece == 0)

/-- Elements of the iteration. -/
def Desc.total (d : Desc) : Nat := d.cnt.foldl (fun n c => n * (c + 1)) 1

/-- Rows of the iteration: runs of dimension 0. -/
def Desc.rowsN (d : Desc) : Nat := (d.cnt.drop 1).foldl (fun n c => n * (c + 1)) 1

/-- Bytes of one row of dimension 0 in a contiguous range; 4-bit rows of odd length take a padding nibble (R104). -/
def Desc.rowBytes (d : Desc) : Nat := ((d.cnt.getD 0 0 + 1) * fmtBits d.fmtMem + 7) / 8

/-- Bytes of the contiguous side of FILL, DRAIN and PUSH. -/
def Desc.bytesN (d : Desc) : Nat := d.rowsN * d.rowBytes

/-! ### Resolution (R176 to R178) -/

/-- The descriptor that a command resolves: the cached copy of the tick, or the table entry, which the cache keeps while it
has room. The third component is the cause when the fetch failed. -/
def State.resolve (s : State) (p idx : Nat) : State × List Nat × Option Poison :=
  match Tbl.get (fun _ => none) (s.core p).dcache idx with
  | some (b, c) => (s, b, c)
  | none =>
    let a := s.reg64 Reg.SYS_SDT_BASE_LO % 2 ^ 40 + 64 * idx
    let s1 := s.satAdd (Reg.CORE_SEFETCH p) 1
    let r : State × List Nat × Option Poison :=
      if a + 64 ≤ s.dramBytes then
        let b := s.bytes a 64
        let ue := s.lineBad (a / 128)
        (s1, b, if ue then some .uncorrectable else if descCrcOk b then none else some .missing)
      else (s1.busError a p false, [], some .missing)
    if (s.core p).dcache.length < 256 then
      (r.1.modCore p (fun c => { c with dcache := Tbl.set (fun _ => none) c.dcache idx (some (r.2.1, r.2.2)) }), r.2)
    else (r.1.sticky (Reg.CORE_SESTAT p) 1, r.2)

/-- Records a failed check of an entry (R176). -/
def State.descError (s : State) (p idx : Nat) : State :=
  let s1 := if s.bit (Reg.CORE_SEERRCAP p) 12 then s else s.setRegN (Reg.CORE_SEERRCAP p) (idx + 0x1000)
  s1.sticky (Reg.CORE_SESTAT p) 0

/-! ### Addresses (R168 to R170) -/

/-- The iteration of counts, dimension 0 fastest. -/
def idxLists : List Nat → List (List Nat)
  | [] => [[]]
  | c :: r => (idxLists r).flatMap (fun t => (List.range (c + 1)).map (fun i => i :: t))

/-- The stored position delivered at an iteration position of a transposing load (R170). -/
def transposed (i : List Nat) : List Nat :=
  match i with
  | a :: b :: r => (32 * (a / 32) + b % 32) :: (32 * (b / 32) + a % 32) :: r
  | l => l

/-- element_address of R168: the byte address and, for the 4-bit formats, the nibble; none where the element takes the pad
value. gl is the index list of a GATHER. -/
def Desc.elem (d : Desc) (org : List Nat) (aoff : Nat) (gl : List Nat) (i : List Nat) : Option (Int × Nat) :=
  let o := fun k => org.getD k 0 + i.getD k 0
  let st := fun k => d.stride.getD (k - 1) 0
  let wr := fun k => d.wrap.getD (k - 1) 0
  let term := fun k =>
    if d.kind = 1 ∧ k = 4 then
      let j := gl.getD (i.getD 4 0) 0xFFFF
      if j = 0xFFFF then none else some (((if wr 4 = 0 then j else j % wr 4 : Nat) : Int) * st 4)
    else some (((if wr k = 0 then o k else o k % wr k : Nat) : Int) * st k)
  let off : Option Int :=
    if d.window then
      let x : Int := ((field d.strideXY 0 4 + 1) * o 3 + (field d.dilXY 0 4 + 1) * o 1 : Nat) - (field d.padLo 0 4 : Nat)
      let y : Int := ((field d.strideXY 4 4 + 1) * o 4 + (field d.dilXY 4 4 + 1) * o 2 : Nat) - (field d.padLo 4 4 : Nat)
      if x < 0 ∨ (wr 3 : Int) ≤ x ∨ y < 0 ∨ (wr 4 : Int) ≤ y then none else some (x * st 1 + y * st 2)
    else
      match term 1, term 2, term 3, term 4 with
      | some a, some b, some c, some e => some (a + b + c + e)
      | _, _, _, _ => none
  off.map (fun f =>
    let j := o 0
    let w := fmtBits d.fmtMem
    ((d.base : Int) + aoff + f + (if w = 4 then j / 2 else j * (w / 8) : Nat), if w = 4 then j % 2 else 0))

/-- The home of n bytes at an address of a descriptor's space, and a number for the range they lie in; none outside every
mapped range (R159, R169). -/
def State.spaceAddr (s : State) (p : Nat) (space : Nat) (write : Bool) (a : Int) (n : Nat) : Option (Nat × Nat) :=
  if a < 0 then none
  else
    let v := a.toNat
    match space with
    | 0 => match s.place v n with
      | .dram h => some (h, 0)
      | .window h => some (h, 1)
      | .rom h => if write then none else some (h, 2)
      | .nvm h => if write then none else some (h, 3)
      | .core q .scratch h => some (h, 16 + 4 * q)
      | .core q .acc h => some (h, 17 + 4 * q)
      | .core q .prog h => some (h, 18 + 4 * q)
      | _ => none
    | 1 => if v + n ≤ s.fld (Reg.CLU_CCCFG (p / 9)) 0 4 * 0x80000 then some (weightBase (p / 9) + v, 4) else none
    | 2 => match s.roleOf p with
      | some l => if v + n ≤ 0x40000 then some (shadowBase l + v, 5) else none
      | none => none
    | _ => none

/-- The places of a list of element addresses: the homes and nibbles, none for padded elements; or the first address that
is outside its space or lies in another range than those before it (R169). -/
def State.places (s : State) (p space : Nat) (write : Bool) (n : Nat) :
    List (Option (Int × Nat)) → Option Nat → Int ⊕ List (Option (Nat × Nat))
  | [], _ => .inr []
  | none :: r, k =>
    match s.places p space write n r k with
    | .inl a => .inl a
    | .inr l => .inr (none :: l)
  | some (a, nib) :: r, k =>
    match s.spaceAddr p space write a n with
    | none => .inl a
    | some (h, rg) =>
      if k = none ∨ k = some rg then
        match s.places p space write n r (some rg) with
        | .inl b => .inl b
        | .inr l => .inr (some (h, nib) :: l)
      else .inl a

/-- Bytes that one element's access touches. -/
def Desc.elemBytes (d : Desc) : Nat := (fmtBits d.fmtMem + 7) / 8

/-- The places of a whole transfer in iteration order, transposition applied. -/
def State.plan (s : State) (p : Nat) (d : Desc) (org : List Nat) (aoff : Nat) (gl : List Nat) (write : Bool) :
    Int ⊕ List (Option (Nat × Nat)) :=
  s.places p d.space write d.elemBytes
    ((idxLists d.cnt).map (fun i => d.elem org aoff gl (if d.transpose then transposed i else i))) none

/-! ### Reading memory (R159, R161, R342) -/

/-- Key of a line in the read cache of cluster g. -/
def lineKey (g line : Nat) : Nat := g * 2 ^ 40 + line

/-- The read cache of cluster g serves a line: whether a line read before is still held is open (the replacement is not
stated), so a free bit decides it; a line that is not held is fetched and kept. -/
def State.touchLine (s : State) (g line : Nat) : State :=
  if s.fld (Reg.CLU_CCCFG g) 4 4 = 0 then s
  else
    let cur := s.bytes (line * 128) 128
    let fill := fun (t : State) => (t.satAdd (Reg.CLU_CCMISS g) 1)
    match Tbl.find (lineKey g line) s.ccache with
    | some _ =>
      let r := s.free 1
      if r.1 = 0 then r.2.satAdd (Reg.CLU_CCHIT g) 1
      else { fill r.2 with ccache := Tbl.insert (lineKey g line) cur s.ccache }
    | none => { fill s with ccache := Tbl.insert (lineKey g line) cur s.ccache }

/-- Lines of DRAM among a list of homes, each once, in order. -/
def dramLines (hs : List Nat) : List Nat :=
  (hs.filter (fun h => decide (h < 0x1000000000))).foldl (fun l h => if l.contains (h / 128) then l else l ++ [h / 128]) []

/-- One byte as core p's stream engine reads it: from the read cache where the transfer allocates there, a free value where
the weight store has not been written since its contents became undefined. -/
def State.seByte (s : State) (p : Nat) (alloc : Bool) (h : Nat) : Nat × State :=
  if alloc && decide (h < 0x1000000000) then
    match Tbl.find (lineKey (p / 9) (h / 128)) s.ccache with
    | some b => (b.getD (h % 128) 0, s)
    | none => (s.byte h, s)
  else if weightBase (p / 9) ≤ h ∧ h < weightBase (p / 9) + 0x500000 ∧ Tbl.get (fun _ => false) s.wsFilled h = false then
    s.free 8
  else (s.byte h, s)

/-- n bytes, little-endian. -/
def State.seLe (s : State) (p : Nat) (alloc : Bool) (h : Nat) : Nat → Nat × State
  | 0 => (0, s)
  | n + 1 =>
    let r := s.seByte p alloc h
    let t := r.2.seLe p alloc (h + 1) n
    (r.1 + 256 * t.1, t.2)

/-- The pad value of a descriptor as stored (Table, Stream descriptor). -/
def Desc.padBits (d : Desc) : Nat :=
  if d.fmtMem = 0xC then d.pad * 0x10000
  else if d.fmtMem = 6 ∨ d.fmtMem = 7 then intBits (fmtBits d.fmtMem) (intOf ⟨true, 16⟩ d.pad)
  else d.pad % 2 ^ fmtBits d.fmtMem

/-- One stored element and the tag it is read under. -/
def State.readElem (s : State) (p : Nat) (d : Desc) (alloc : Bool) (pl : Option (Nat × Nat)) : (Nat × Tag) × State :=
  match pl with
  | none => ((d.padBits, Tag.clean), s)
  | some (h, nib) =>
    let r := s.seLe p alloc h d.elemBytes
    let v := if fmtBits d.fmtMem = 4 then r.1 / 16 ^ nib % 16 else r.1
    ((v, s.tagAt h), r.2)

/-- The stored elements of places, in order. -/
def State.readElems (s : State) (p : Nat) (d : Desc) (alloc : Bool) : List (Option (Nat × Nat)) → List (Nat × Tag) × State
  | [] => ([], s)
  | pl :: r =>
    let e := s.readElem p d alloc pl
    let t := e.2.readElems p d alloc r
    (e.1 :: t.1, t.2)

/-- Every element of a transfer as stored: the lines that the cluster read cache serves are touched first. -/
def State.fetchAll (s : State) (p : Nat) (d : Desc) (pls : List (Option (Nat × Nat))) : List (Nat × Tag) × State :=
  let alloc := d.cache == 2 && d.space == 0
  let s1 := if alloc then (dramLines (pls.filterMap (fun x => x.map Prod.fst))).foldl (fun t l => t.touchLine (p / 9) l) s else s
  s1.readElems p d alloc pls

/-! ### The load path (R108, R112, R115, R118, R123) -/

/-- Flush of a narrow floating value under ftz: the bits and whether they were flushed. -/
def flushF (f : FFmt) (ftz : Bool) (b : Nat) : Nat × Bool :=
  if ftz && isSubF f b then (f.signBit (decide (b / 2 ^ (f.ebits + f.mbits) % 2 = 1)), true) else (b, false)

/-- The engine-side bits of a stored element, whether it was flushed and whether a narrowing saturated it. -/
def loadPath (d : Desc) (ftz : Bool) (v : Nat) : Nat × Bool × Bool :=
  if d.split then
    if d.fmtMem = 0xC then
      let x := flush32 ftz v
      let ps := bfPieces x.1
      let q := flushF bf16 ftz (if d.pieceIdx = 0 then ps.1 else if d.pieceIdx = 1 then ps.2.1 else ps.2.2)
      (q.1, x.2 || q.2, false)
    else (v / 256 ^ d.pieceIdx % 256, false, false)
  else if d.fmtMem = 0xC ∧ d.fmtEng = 0xB then
    let r := narrowFloat bf16 d.sat ftz v
    (r.bits, r.flush, r.sat)
  else
    match fltOf d.fmtMem, intFmtOf d.fmtMem with
    | some f, _ =>
      if d.fmtEng = 0xC then
        let r := widenF f ftz v
        (r.1, r.2.1, false)
      else
        let r := flushF f ftz v
        (r.1, r.2, false)
    | none, some f => if d.fmtEng = 7 then (intBits 32 (intOf f v), false, false) else (v, false, false)
    | none, none => (v, false, false)

/-- An engine-side value is a NaN. -/
def isNanEng (fmt v : Nat) : Bool :=
  match fltOf fmt with
  | some f => decodeF f v == .nan
  | none => false

/-- The elements that a LOAD or GATHER delivers: engine-side bits, gather valid bits, tags with the numerics bits of the
conversion in counter mode. -/
def loadElems (d : Desc) (ftz counter : Bool) (valid : List Bool) (raw : List (Nat × Tag)) : List Elem :=
  (raw.zip valid).map (fun (x, v) =>
    let r := loadPath d ftz x.1
    ⟨r.1, v, if counter then { x.2 with sat := x.2.sat || r.2.2, flush := x.2.flush || r.2.1 } else x.2⟩)

/-! ### Writing memory -/

/-- Writes one byte at a home as core p's stream engine: program memory under R231, the weight store becomes filled, the
read cache of the cluster loses the line (R161). -/
def State.sePut (s : State) (p h v : Nat) : State :=
  if 0x1000000000 ≤ h ∧ h < 0x1090000000 ∧ progOff ≤ (h - 0x1000000000) % 0x2000000 then
    let q := (h - 0x1000000000) / 0x2000000
    if s.coreState q = 0 ∨ s.coreState q = 3 then s.setByte h v
    else (s.sticky (Reg.CORE_STATUS q) 8).satAdd (Reg.CORE_PROGREJ q) 1
  else
    let s1 := s.setByte h v
    if h < 0x1000000000 then { s1 with ccache := Tbl.erase (lineKey (p / 9) (h / 128)) s1.ccache }
    else if weightBase (p / 9) ≤ h ∧ h < weightBase (p / 9) + 0x500000 then
      { s1 with wsFilled := Tbl.set (fun _ => false) s1.wsFilled h true }
    else s1

/-- Writes n little-endian bytes. -/
def State.seSet (s : State) (p h : Nat) : Nat → Nat → State
  | 0, _ => s
  | n + 1, v => (s.sePut p h (v % 256)).seSet p (h + 1) n (v / 256)

/-- Writes one element of a format at its place. -/
def State.writeElem (s : State) (p fmt : Nat) (pl : Option (Nat × Nat)) (v : Nat) : State :=
  match pl with
  | none => s
  | some (h, nib) =>
    if fmtBits fmt = 4 then s.sePut p h (putField (s.byte h) (4 * nib) 4 v)
    else s.seSet p h (fmtBits fmt / 8) v

/-- Lines of memory outside the cores among a list of homes, each once, in order. -/
def outerLines (hs : List Nat) : List Nat :=
  (hs.filter (fun h => decide (h < 0x1000000000) || decide (0x1300000000 ≤ h))).foldl (fun l h => if l.contains (h / 128) then l else l ++ [h / 128]) []

/-- A line written whole reads without the uncorrectable flag again (R343). -/
def State.healLines (s : State) (hs : List Nat) : State :=
  (outerLines hs).foldl (fun t l =>
    if t.lineBad l && (List.range 128).all (fun i => hs.contains (l * 128 + i)) then t.markLine l false
    else t) s

/-- The bytes that elements of a width at places cover. -/
def placeBytes (n : Nat) (pls : List (Option (Nat × Nat))) : List Nat :=
  pls.flatMap (fun x => match x with
    | none => []
    | some (h, _) => (List.range n).map (fun i => h + i))

/-- Writes elements with their tags at places, in order; each block of a core memory takes the join of the tags of the
elements written in it, and keeps its own beside them when only part of it is written (R524). -/
def State.writeElems (s : State) (p fmt : Nat) (pls : List (Option (Nat × Nat))) (vs : List (Nat × Tag)) : State :=
  let s1 := (pls.zip vs).foldl (fun t (pl, v) => t.writeElem p fmt pl v.1) s
  let n := (fmtBits fmt + 7) / 8
  let bs := placeBytes n (pls.take vs.length)
  let s2 := s1.healLines bs
  let ks := (bs.filterMap tagKey).foldl (fun l k => if l.contains k then l else l ++ [k]) []
  ks.foldl (fun t k =>
    let size := if k.2 < 4096 then 512 else 4096
    let cover := ((bs.filter (fun b => tagKey b == some k)).dedup).length
    let tag := joinTags (((pls.zip vs).filter (fun (pl, _) =>
      (placeBytes n [pl]).any (fun b => tagKey b == some k))).map (fun e => e.2.2))
    t.setBlockTag k.1 k.2 (if cover = size then tag else tag.join (t.blockTag k.1 k.2))) s2

/-- A contiguous range in core p's scratchpad from packed elements: rows of dimension 0, 4-bit rows of odd length closed with
the padding nibble 0x0, or 0x8 in bell-4 (R104). -/
def packRow (fmt : Nat) : List Nat → List Nat
  | [] => []
  | [v] => if fmtBits fmt = 4 then [v % 16 + (if fmt = 2 then 0x80 else 0)] else leBytes (fmtBits fmt / 8) v
  | v :: w :: r =>
    if fmtBits fmt = 4 then (v % 16 + 16 * (w % 16)) :: packRow fmt r
    else leBytes (fmtBits fmt / 8) v ++ packRow fmt (w :: r)

/-- A list cut into rows of a length. -/
def rowsOf {α : Type} (n : Nat) : Nat → List α → List (List α)
  | 0, _ => []
  | k + 1, l => l.take n :: rowsOf n k (l.drop n)

/-- The packed bytes of a transfer's elements. -/
def Desc.pack (d : Desc) (vs : List Nat) : List Nat :=
  (rowsOf (d.cnt.getD 0 0 + 1) d.rowsN vs).flatMap (packRow d.fmtMem)

/-- Element i of a packed row. -/
def unpackElem (fmt : Nat) (row : List Nat) (i : Nat) : Nat :=
  if fmtBits fmt = 4 then row.getD (i / 2) 0 / 16 ^ (i % 2) % 16 else sub row (i * (fmtBits fmt / 8)) (fmtBits fmt / 8)

/-- The elements of packed bytes. -/
def Desc.unpack (d : Desc) (bs : List Nat) : List Nat :=
  (rowsOf d.rowBytes d.rowsN bs).flatMap (fun row => (List.range (d.cnt.getD 0 0 + 1)).map (unpackElem d.fmtMem row))

/-- For each 512-byte block of a range of n bytes from an offset within its first block: the bytes of the range in it. -/
def blockSpans (a n : Nat) : List (Nat × Nat) :=
  (List.range ((a % 512 + n + 511) / 512)).map (fun i =>
    let lo := max a (a - a % 512 + 512 * i)
    let hi := min (a + n) (a - a % 512 + 512 * i + 512)
    (lo, hi - lo))

/-- Writes bytes with their tags at an address of a core's scratchpad (R524). -/
def State.putTagged (s : State) (h : Nat) (bs : List (Nat × Tag)) : State :=
  (blockSpans h bs.length).foldl (fun t (lo, n) => t.tagWrite lo n (joinTags (((bs.drop (lo - h)).take n).map Prod.snd)))
    (s.setBytes h (bs.map Prod.fst))

/-- Bytes of a value, each with its tag. -/
def taggedBytes (n v : Nat) (t : Tag) : List (Nat × Tag) := (leBytes n v).map (fun b => (b, t))

end Sys2Proof.Machine
end

