-- ==== Sys2Proof/Machine/Engine.lean ====
section
/-! DEFINITION. The issue of engine commands (02_the_weave.md R48, R51; 09 R244, R249, R253, R255): a command runs whole when
its input is present, waits when it is not, and proceeds with zeros when the wait expires. -/

namespace Sys2Proof.Machine

/-- What an engine command does: it waits for input data, raises a halt reason, or is done. -/
inductive Eng where
  | wait
  | halt (s : State) (code info addr : Nat)
  | done (s : State)

/-- The carry decision in force for the commands of a context: 0 none, 1 computed, 2 carried, 3 gated without a previous
output (R57, R249). -/
def State.gateCode (s : State) (x : Ctx) : Nat :=
  match x with
  | .woven p => match (s.core p.val).region with
    | some r => Tbl.get (fun _ => 0) (s.core p.val).decided r
    | none => 0
  | .loose _ _ => 0

/-- The commands of the context are gated (R249). -/
def State.gated (s : State) (x : Ctx) : Bool := decide (2 ≤ s.gateCode x)

/-- What the carry region in which a command runs adds to the tag of its output: the region counts as computed, and a
region decided on an incomplete map poisons it (R56, R248). -/
def State.regionTag (s : State) (x : Ctx) : Tag :=
  match x with
  | .woven p => match (s.core p.val).region with
    | some r => ⟨if (s.core p.val).regionPoison.contains r then .missing else .clean, false, false, some false⟩
    | none => Tag.clean
  | .loose _ _ => Tag.clean

/-- The command that a context waits with is kept, and the context waits for input data (R48). -/
def State.hold (s : State) (x : Ctx) (i : Instr) : State :=
  match x with
  | .woven p => (s.modCore p.val (fun c => { c with held := some i, heldPick := s.pickNow })).setCoreState p.val 2 3
  | .loose p k => match s.loosejob p.val k.val with
    | some j => s.putJob { j with held := some i, heldPick := s.pickNow }
    | none => s

/-- The end of an engine command's run: the sequencer goes on, waits, or stops. -/
def Eng.finish (r : Eng) (x : Ctx) (i : Instr) (s : State) : State :=
  match r with
  | .wait => s.hold x i
  | .halt t code info addr => t.weftFault x code info addr
  | .done t => t.advance x

/-- The issue of an engine command. -/
def engine (x : Ctx) (i : Instr) (major minor : Nat) (ok : Bool) (s : State) (run : Bool → State → Eng) :
    Host.Outcome State Fault Refusal :=
  issue x major minor ok s (fun s => (run false s).finish x i s)

/-! ### Operands in the core's own scratchpad -/

/-- n bytes at the address in An in the core's own scratchpad, aligned: the physical address. -/
def State.array (s : State) (x : Ctx) (an : BitVec 4) (align n : Nat) : Nat × Option Nat :=
  let a := ((s.ctx x).getA an.toNat).toNat
  (a, if a % align = 0 then s.ownScratch x a n else none)

/-- Continues with an array's address, or raises SE_ADDR with slot 0xF and index 0xFFF (R256). -/
def State.withArray (s : State) (x : Ctx) (an : BitVec 4) (align n : Nat) (k : Nat → Eng) : Eng :=
  match s.array x an align n with
  | (_, some h) => k h
  | (a, none) => .halt s haltSeAddr seAddrInfo a

/-! ### Landing buffer slots as input (R48, R51, R180, R183) -/

/-- The landing buffer slots of the core's role that some of the bytes lie in: key, home and size of each. -/
def State.landingOf (s : State) (p : Nat) (hs : List Nat) : List (Nat × Nat × Nat) :=
  match s.coreSec p with
  | none => []
  | some sec =>
    let all := sec.land.flatMap (fun b => (List.range b.slots).map (fun i =>
      (16 * b.number + i, coreBase p + b.offset + i * b.slotBytes, b.slotBytes)))
    all.filter (fun e => hs.any (fun h => decide (e.2.1 ≤ h ∧ h < e.2.1 + e.2.2)))

/-- A landing slot holds data. -/
def State.isLanded (s : State) (p k : Nat) : Bool := Tbl.get (fun _ => false) (s.core p).landed k

/-- Frees landing slots: the command that named them completes (R180). -/
def State.freeLanding (s : State) (p : Nat) (ks : List Nat) : State :=
  s.modCore p (fun c => { c with landed := ks.foldl (fun t k => Tbl.set (fun _ => false) t k false) c.landed })

/-- The cause of a missing landing slot: STALE_ROLE after a stale drop in this pick or the one before (R183). -/
def State.missingCause (s : State) (p k : Nat) : Poison :=
  match Tbl.get (fun _ => none) (s.core p).staleAt k with
  | some q => if s.pickNow ≤ q + 1 then .stale else .missing
  | none => .missing

/-- Reads of bytes that lie in absent landing slots give zero with the cause; other reads are as given. -/
def maskMissing (missing : List (Nat × Nat × Nat)) (cause : Nat → Poison) (h : Nat) (v : Nat × Tag) : Nat × Tag :=
  match missing.find? (fun e => decide (e.2.1 ≤ h ∧ h < e.2.1 + e.2.2)) with
  | some e => (0, Tag.ofCause (cause e.1))
  | none => v

/-! ### Vectors of a stream slot (R169, R253) -/

/-- Stream slot k of core p. -/
def State.slot (s : State) (p k : Nat) : Slot :=
  Tbl.get (fun _ => ⟨false, 0, 0, none, none, [], 0, [], 0, false⟩) (s.core p).slots k

/-- Sets a stream slot. -/
def State.setSlot (s : State) (p k : Nat) (v : Slot) : State :=
  s.modCore p (fun c => { c with slots := Tbl.set (fun _ => ⟨false, 0, 0, none, none, [], 0, [], 0, false⟩) c.slots k v })

/-- The slot delivers vectors: it holds a LOAD or GATHER. -/
def Slot.feeds (t : Slot) : Bool := t.active && decide (t.kind ≤ 1)

/-- An element that has not arrived reads as zero, poisoned (R51, R176). -/
def missingElem (c : Poison) : Elem := ⟨0, true, Tag.ofCause c⟩

/-- The next n elements of slot k: none while they have not all arrived; with a failed entry, zeros with its cause (R176);
after the wait, zeros for those missing (R51). -/
def State.take (s : State) (p k n : Nat) (expired : Bool) : Option (List Elem × State) :=
  let t := s.slot p k
  match t.bad with
  | some c => some (List.replicate n (missingElem c), s)
  | none =>
    let have_ := if t.feeds then t.elems else []
    if n ≤ have_.length then some (have_.take n, s.setSlot p k { t with elems := have_.drop n })
    else if expired then
      some (have_ ++ List.replicate (n - have_.length) (missingElem .missing), if t.feeds then s.setSlot p k { t with elems := [] } else s)
    else none

/-- A NaN among the engine-side values that a command takes from a slot (CORE_NUMSTAT.nan_in). -/
def State.nanIn (s : State) (p k : Nat) (es : List Elem) : State :=
  match (s.slot p k).desc with
  | some d => s.stickyIf (es.any (fun e => isNanEng d.fmtEng e.bits)) (Reg.CORE_NUMSTAT p) 2
  | none => s

/-- n free bytes. -/
def State.freeBytes (s : State) : Nat → List Nat × State
  | 0 => ([], s)
  | n + 1 =>
    let r := s.free 8
    let t := r.2.freeBytes n
    (r.1 :: t.1, t.2)

end Sys2Proof.Machine
end

