-- ==== Sys2Proof/Machine/Xfer.lean ====
section
/-! DEFINITION. The stream commands SE.XFER and SE.INV, and the arrival of pushes and stale-role notices (06_memory_system.md
R171, R176, R179 to R184; 09 R246, R249, R253, R254). -/

namespace Sys2Proof.Machine

/-- The descriptor that the threader checked for an index fixed at load: the image's entry (R176). -/
def State.checkedDesc (s : State) (x : Ctx) (idx : Nat) : Option Desc :=
  match x, s.weave.active with
  | .woven _, some im => (im.descs.find? (fun e => e.1 == idx)).map (fun e => Desc.ofBytes e.2)
  | _, _ => none

/-- Poisons a range whose contents stay (R176). -/
def State.poisonRange (s : State) (a n : Nat) (t : Tag) : State :=
  (touchedKeys a n).foldl (fun u (p, k, _) => u.setBlockTag p k (t.join (u.blockTag p k))) s

/-- The role-table entry of a logical core as core p sees it in this tick: cached at first use (R178, R181). -/
def State.roleCopy (s : State) (p l : Nat) : State × Option Nat × Nat :=
  match Tbl.get (fun _ => none) (s.core p).rcache l with
  | some (slot, ep) => (s, if slot ≤ 8 then some (physCore (l / 8) slot) else none, ep)
  | none =>
    let slot := match s.roleSlot l with
      | some v => v
      | none => 15
    (s.modCore p (fun c => { c with rcache := Tbl.set (fun _ => none) c.rcache l (some (slot, s.roleEpoch l)) }),
      s.physOf l, s.roleEpoch l)

/-- The homes of the bytes of places. -/
def homesOf (n : Nat) (pls : List (Option (Nat × Nat))) : List Nat := placeBytes n pls

/-- A transfer as issued: slot state after it, kind and index recorded. -/
def Slot.start (k idx : Nat) (d : Option Desc) (bad : Option Poison) (org : List Nat) (aoff : Nat) (es : List Elem)
    (act car : Bool) : Slot :=
  ⟨act, k, idx, d, bad, org, aoff, es, 0, car⟩

/-- Reads the elements at places, absent landing slots as zero. -/
def State.fetchMasked (s : State) (p : Nat) (d : Desc) (pls : List (Option (Nat × Nat))) (missing : List (Nat × Nat × Nat)) :
    List (Nat × Tag) × State :=
  let r := s.fetchAll p d pls
  ((r.1.zip pls).map (fun (v, pl) => match pl with
    | some (h, _) => maskMissing missing (s.missingCause p) h v
    | none => v), r.2)

/-- The run of SE.XFER (R253): the descriptor is resolved, the addresses are checked, and the transfer of its kind starts. -/
def xferRun (x : Ctx) (f : Xfer) (expired : Bool) (s : State) : Eng :=
  let p := x.core
  let c := s.ctx x
  let idx := if f.ireg then (c.getS (f.idx.toNat % 32)).toNat % 4096 else f.idx.toNat
  let os := if f.oen then (c.getS f.osr.toNat).toNat else 0
  let org := [f.o0.toNat, f.o1.toNat, f.o2.toNat, os % 65536, os / 65536]
  let aoff := if f.aen then (c.getA f.an.toNat).toNat else 0
  let spA := (c.getA f.sp.toNat).toNat
  let k := f.slot.toNat
  let info := k + idx * 16
  let gated := s.gated x
  let ftz := s.ftz x
  match s.resolve p idx with
  | (s1, _, some cause) =>
    let s2 := (s1.descError p idx).setSlot p k (Slot.start 0 idx none (some cause) org aoff [] true gated)
    match (if f.ireg then none else s.checkedDesc x idx) with
    | some d =>
      if d.kind = 3 ∧ gated = false then
        match s.ownScratch x spA d.bytesN with
        | some h => .done (s2.poisonRange h d.bytesN (Tag.ofCause cause))
        | none => .halt s2 haltSeAddr info spA
      else .done s2
    | none => .done s2
  | (s1, b, none) =>
    let d := Desc.ofBytes b
    if d.ok = false ∨ (isLoose x = true ∧ (d.kind = 5 ∨ d.space = 2)) then .halt s1 haltSeFormat info 0
    else
      let listOk := d.kind != 1 || decide (d.aux + 2 * (d.cnt.getD 4 0 + 1) ≤ 0x200000)
      let listA := coreBase p + d.aux
      let gl := if d.kind = 1 then (List.range (d.cnt.getD 4 0 + 1)).map (fun i => s1.le (listA + 2 * i) 2) else []
      let write := d.kind == 2 || d.kind == 4
      if listOk = false then .halt s1 haltSeAddr info (coreBase p + d.aux)
      else match s1.plan p d org aoff gl write with
        | .inl a => .halt s1 haltSeAddr info (a % 2 ^ 40).toNat
        | .inr pls =>
          let side := s1.ownScratch x spA d.bytesN
          if (d.kind = 3 ∨ d.kind = 4) ∧ side = none then .halt s1 haltSeAddr info spA
          else if d.kind = 5 ∧ ¬ (homesOf d.elemBytes pls).all (fun h => decide (coreBase p ≤ h ∧ h < coreBase p + 0x200000)) then
            .halt s1 haltSeAddr info ((homesOf d.elemBytes pls).getD 0 0)
          else
            let sideA := side.getD 0
            let reads := if d.kind = 4 then (List.range d.bytesN).map (fun i => sideA + i)
                         else if d.kind = 2 then [] else homesOf d.elemBytes pls
            let lands := if gated && d.kind != 4 && d.kind != 5 then [] else s1.landingOf p reads
            let missing := lands.filter (fun e => !s1.isLanded p e.1)
            if missing ≠ [] ∧ expired = false then .wait
            else
              let s2 := s1.freeLanding p (lands.map Prod.fst)
              let rt := s1.regionTag x
              match d.kind with
              | 2 => .done (s2.setSlot p k (Slot.start 2 idx (some d) none org aoff [] true gated))
              | 3 =>
                if gated then .done (s2.setSlot p k (Slot.start 3 idx (some d) none org aoff [] false true))
                else
                  let r := s2.fetchMasked p d pls missing
                  let bs := d.pack (r.1.map Prod.fst)
                  let s3 := (bs.zip (List.range bs.length)).foldl (fun t (v, i) => t.sePut p (sideA + i) v) r.2
                  -- each block takes the cause of its source data (R524)
                  let tagOf := fun (lo n : Nat) =>
                    (joinTags (((r.1.zip (List.range r.1.length)).filter (fun e =>
                      let rb := d.rowBytes
                      let at_ := sideA + (e.2 / (d.cnt.getD 0 0 + 1)) * rb + (e.2 % (d.cnt.getD 0 0 + 1)) * fmtBits d.fmtMem / 8
                      decide (lo ≤ at_ + (d.elemBytes - 1) ∧ at_ < lo + n))).map (fun e => e.1.2))).join rt
                  let s4 := (blockSpans sideA bs.length).foldl (fun t (lo, n) => t.tagWrite lo n (tagOf lo n)) s3
                  .done (s4.setSlot p k (Slot.start 3 idx (some d) none org aoff [] false false))
              | 4 =>
                let raw := (List.range d.bytesN).map (fun i =>
                  (maskMissing missing (s1.missingCause p) (sideA + i) (s2.byte (sideA + i), s2.tagAt (sideA + i))))
                let tag := (joinTags (raw.map Prod.snd)).join rt
                let s3 := s2.writeElems p d.fmtMem pls ((d.unpack (raw.map Prod.fst)).map (fun v => (v, tag)))
                .done (s3.setSlot p k (Slot.start 4 idx (some d) none org aoff [] false gated))
              | 5 =>
                let r := s2.fetchMasked p d pls missing
                let bs := d.pack (r.1.map Prod.fst)
                let l := field d.aux 0 6
                let rc := r.2.roleCopy p l
                let all := joinTags (r.1.map Prod.snd)
                let perBlock := if all.cause = .clean ∧ all.sat = false ∧ all.flush = false ∧ all.carried = none then []
                  else (rowsOf 512 ((bs.length + 511) / 512) (List.range bs.length)).map (fun ix =>
                    joinTags (((r.1.zip (List.range r.1.length)).filter (fun e =>
                      let at_ := (e.2 / (d.cnt.getD 0 0 + 1)) * d.rowBytes + (e.2 % (d.cnt.getD 0 0 + 1)) * fmtBits d.fmtMem / 8
                      ix.contains at_)).map (fun e => e.1.2)))
                let ps : Push := ⟨p, l, rc.2.2, rc.2.1, field d.aux 8 6, field d.aux 16 4, bs, perBlock⟩
                .done ({ rc.1 with pushes := rc.1.pushes ++ [ps] }.setSlot p k
                  (Slot.start 5 idx (some d) none org aoff [] false gated))
              | kd =>
                if gated then .done (s2.setSlot p k (Slot.start kd idx (some d) none org aoff [] true true))
                else
                  let r := s2.fetchMasked p d pls missing
                  let valid := (idxLists d.cnt).map (fun i => kd != 1 || gl.getD (i.getD 4 0) 0xFFFF != 0xFFFF)
                  let lt := if kd = 1 then s2.tagRange listA (2 * (d.cnt.getD 4 0 + 1)) else Tag.clean
                  let es := loadElems d ftz ((s2.core p).statMode == 2) valid (r.1.map (fun e => (e.1, e.2.join lt)))
                  let fl := r.1.any (fun e => (loadPath d ftz e.1).2.1)
                  let sat := r.1.any (fun e => (loadPath d ftz e.1).2.2)
                  let s3 := (r.2.stickyIf fl (Reg.CORE_NUMSTAT p) 1).stickyIf sat (Reg.CORE_NUMSTAT p) 0
                  .done (s3.setSlot p k (Slot.start kd idx (some d) none org aoff es true false))

/-- SE.XFER: resolves its descriptor when it issues and starts a transfer of its kind in its slot (R253). -/
def execSeXfer (x : Ctx) (f : Xfer) (s : State) : Out :=
  engine x (.seXfer x f) 0x08 0x00 f.wf s (xferRun x f)

/-! ### Invalidations (R179) -/

/-- An invalidation of one index or of all (none) arrives at core p; it takes effect at the next pick boundary. -/
def State.sendInval (s : State) (p : Nat) (i : Option Nat) : State :=
  s.modCore p (fun c => { c with inval := if c.inval.contains i then c.inval else c.inval ++ [i] })

/-- SE.INV: invalidates one or every cached entry of this core (R254). -/
def execSeInv (x : Ctx) (v : InvArg) (s : State) : Out :=
  issue x 0x08 0x01 true s (fun s =>
    let i := match v with
      | .all => none
      | .reg r => some (((s.ctx x).getS r.toNat).toNat % 4096)
      | .idx i => some i.toNat
    (s.sendInval x.core i).advance x)

/-! ### Pushes (R182, R184) -/

/-- A push is dropped for a role mismatch (R182): the cluster counts it and captures the first, the core that now holds the
role remembers it for R183, and a notice goes to the sender. -/
def State.staleDrop (s : State) (ps : Push) (g : Nat) (noRole : Bool) (cur : Nat) : State :=
  let s1 := s.satAdd (Reg.CLU_STALE g) 1
  let s2 := if s1.bit (Reg.CLU_STALECAP g) 31 then s1
    else s1.setRegN (Reg.CLU_STALECAP g) (ps.target + ps.epoch * 0x100 + cur * 0x10000 + ps.buffer * 0x1000000 +
      (if noRole then 0x40000000 else 0) + 0x80000000)
  let s3 := match s.physOf ps.target with
    | some r => s2.modCore r (fun c =>
        { c with staleAt := Tbl.set (fun _ => none) c.staleAt (16 * ps.buffer + ps.slot) (some s.pickNow) })
    | none => s2
  { s3 with notices := s3.notices ++ [ps.sender] }

/-- The landing buffer of core q that a push names, when the role declares it and the slot. -/
def State.landBuf (s : State) (q : Nat) (ps : Push) : Option LandBuf :=
  match s.coreSec q with
  | some sec => sec.land.find? (fun b => b.number == ps.buffer && decide (ps.slot < b.slots))
  | none => none

/-- A push lands in its slot: bytes and tags are written and the slot becomes occupied (R180, R524). -/
def State.landPush (s : State) (p : Nat) (ps : Push) (home : Nat) : State :=
  let s1 := s.setBytes home ps.bytes
  let s2 := (blockSpans home ps.bytes.length).foldl (fun t (lo, n) =>
    let tag := joinTags ((List.range ps.tags.length).filterMap (fun i =>
      if lo < home + 512 * i + 512 ∧ home + 512 * i < lo + n then ps.tags[i]? else none))
    t.tagWrite lo n tag) s1
  s2.modCore p (fun c => { c with landed := Tbl.set (fun _ => false) c.landed (16 * ps.buffer + ps.slot) true })

/-- The n-th push in flight arrives (R182, R184): it lands, or is dropped for a stale role with a notice to its sender, or
is dropped at an occupied or undeclared slot. -/
def execPushArrival (n : Nat) (s : State) : Out :=
  match s.pushes[n]? with
  | none => .next s
  | some ps =>
    let s0 := { s with pushes := s.pushes.eraseIdx n }
    match ps.dest with
    | none => .next (s0.staleDrop ps (ps.target / 8) true 0)
    | some q =>
      match s0.roleOf q with
      | none => .next (s0.staleDrop ps (q / 9) true 0)
      | some l =>
        if l ≠ ps.target ∨ s0.roleEpoch l ≠ ps.epoch then .next (s0.staleDrop ps (q / 9) false (s0.roleEpoch l))
        else match s0.landBuf q ps with
          | some b =>
            if s0.isLanded q (16 * ps.buffer + ps.slot) then .next (s0.satAdd (Reg.CLU_LBDROP (q / 9)) 1)
            else .next (s0.landPush q { ps with bytes := ps.bytes.take b.slotBytes } (coreBase q + b.offset + ps.slot * b.slotBytes))
          | none => .next (s0.satAdd (Reg.CLU_LBDROP (q / 9)) 1)

/-- The n-th stale-role notice in flight reaches its sender, which counts it and does not retry (R182). -/
def execStaleNotice (n : Nat) (s : State) : Out :=
  match s.notices[n]? with
  | none => .next s
  | some p =>
    .next (({ s with notices := s.notices.eraseIdx n }.satAdd (Reg.CORE_SESTALE p) 1).sticky (Reg.CORE_SESTAT p) 2)

end Sys2Proof.Machine
end

