-- ==== Sys2Proof/Machine/Carry.lean ====
section
/-! DEFINITION. Carry regions (02_the_weave.md R53 to R57; 09 R247 to R249): CARRY.BEGIN decides on its first use in a tick
whether its region is carried, and restores or clears the region's outputs. -/

namespace Sys2Proof.Machine

/-- The handle of a stream: the decoder's for a camera stream, the ISP's for a pixel port (R306, R329). -/
def State.handleAddr (s : State) (stream : Nat) : Option Nat :=
  if stream < 0x200 then some (s.reg64 Reg.VDEC_HTAB_LO % 2 ^ 40 + 128 * stream)
  else if 0x400 ≤ stream ∧ stream < 0x404 then some (s.reg64 Reg.ISP_HTAB_LO % 2 ^ 40 + 128 * (stream - 0x400))
  else none

/-- n bytes of DRAM or of the system cache window can be read at a. -/
def State.readableMem (s : State) (a n : Nat) : Bool :=
  match s.place a n with
  | .dram _ => true
  | .window _ => true
  | _ => false

/-- What the current frame of a stream says of a region: carry-all (outcomes 0 and 3), some bit set, or the bits incomplete
(R53, R55, R248, R302). -/
inductive MapRead where
  | carryAll
  | bits (any : Bool)
  | incomplete
  deriving DecidableEq, Repr

/-- Reads the change-map bits of a footprint (R53, R305). -/
def State.readMap (s : State) (rg : CarryRegion) : MapRead :=
  match s.handleAddr rg.stream with
  | none => .bits true
  | some h =>
    if s.readableMem h 128 && crc32c (s.bytes h 124) == s.le (h + 124) 4 then
      let outcome := s.byte (h + 20)
      if outcome = 0 ∨ outcome = 3 then .carryAll
      else
        let map := s.le (h + 48) 8
        let str := s.le (h + 80) 2
        if rg.bx0 < rg.bx1 ∧ rg.by0 < rg.by1 ∧ s.readableMem (map + rg.by0 * str) ((rg.by1 - 1 - rg.by0) * str + (rg.bx1 - 1) / 8 + 1) = false
        then .incomplete
        else .bits ((List.range (rg.by1 - rg.by0)).any (fun y => (List.range (rg.bx1 - rg.bx0)).any (fun x =>
          (s.byte (map + (rg.by0 + y) * str + (rg.bx0 + x) / 8)).testBit ((rg.bx0 + x) % 8))))
    else .incomplete

/-- Key of a carry region in the weave's tables. -/
def regionKey (role r : Nat) : Nat := 4096 * role + r

/-- The previous output of a region is kept in its carry state (R57). -/
def State.carryValid (s : State) (role r : Nat) : Bool := Tbl.get (fun _ => false) s.weave.carryValid (regionKey role r)

/-- Sets the valid mark and the carry count of a region. -/
def State.setCarry (s : State) (role r : Nat) (v : Bool) (n : Nat) : State :=
  { s with weave := { s.weave with
      carryValid := Tbl.set (fun _ => false) s.weave.carryValid (regionKey role r) v,
      carryCount := Tbl.set (fun _ => 0) s.weave.carryCount (regionKey role r) n } }

/-- The carry count of a region. -/
def State.carryCount (s : State) (role r : Nat) : Nat := Tbl.get (fun _ => 0) s.weave.carryCount (regionKey role r)

/-- The home of byte i of a role's carry state on core p: the carry ranges in table order, packed from byte 0. -/
def carryHome (p : Nat) : List CarryRange → Nat → Option Nat
  | [], _ => none
  | c :: r, i => if i < c.size then some (coreBase p + c.offset + i) else carryHome p r (i - c.size)

/-- Writes bytes at a device address as the stream engine of core p; nothing where no writable memory lies. -/
def State.seWrite (s : State) (p a : Nat) (bs : List Nat) : State :=
  match s.spaceAddr p 0 true a bs.length with
  | some (h, _) => (bs.zip (List.range bs.length)).foldl (fun t (v, i) => t.sePut p (h + i) v) s
  | none => s

/-- Restores one output range of a carried region: bytes and tags of its carry-state copy, marked carried (R54, R249). -/
def State.restoreOut (s : State) (p : Nat) (sec : CoreSec) (o : OutRange) : State :=
  let homes := (List.range o.size).map (fun i => carryHome p sec.carry (o.carry + i))
  let bs := homes.map (fun h => match h with | some a => s.byte a | none => 0)
  let s1 := s.seWrite p o.dest bs
  match s.spaceAddr p 0 true o.dest o.size with
  | none => s1
  | some (h, _) =>
    (blockSpans h o.size).foldl (fun t (lo, n) =>
      let src := (homes.drop (lo - h)).take n
      let tag := joinTags (src.filterMap (fun a => a.map s.tagAt))
      t.tagWrite lo n { tag with carried := some true }) s1

/-- Clears one output range of a region without a previous output: zeros, poisoned MISSING_INPUT (R57). -/
def State.zeroOut (s : State) (p : Nat) (o : OutRange) : State :=
  let s1 := s.seWrite p o.dest (List.replicate o.size 0)
  match s.spaceAddr p 0 true o.dest o.size with
  | none => s1
  | some (h, _) => (blockSpans h o.size).foldl (fun t (lo, n) => t.tagWrite lo n (Tag.ofCause .missing)) s1

/-- The output ranges of a region. -/
def CoreSec.outsOf (sec : CoreSec) (rg : CarryRegion) : List OutRange := (sec.outs.drop rg.firstOut).take rg.outN

/-- The decision on a region at its first CARRY.BEGIN of the tick (R53, R55, R57). -/
def State.decideRegion (s : State) (p l : Nat) (sec : CoreSec) (rg : CarryRegion) (m : MapRead) : State :=
  let r := rg.region
  let valid := s.carryValid l r
  let limit := match s.weave.active with | some im => im.carryLimit | none => 0
  let code := match m with
    | .carryAll => if valid then 2 else 3
    | .bits a => if !a && valid && decide (s.carryCount l r < limit) then 2 else 1
    | .incomplete => if valid && decide (s.carryCount l r < limit) then 2 else 1
  let s1 := s.modCore p (fun c => { c with
    decided := Tbl.set (fun _ => 0) c.decided r code,
    regionPoison := if m = .incomplete then r :: c.regionPoison else c.regionPoison })
  let s2 := if code = 1 then s1.setCarry l r true 0
            else if m = .carryAll then s1 else s1.setCarry l r true (s.carryCount l r + 1)
  if code = 2 then (sec.outsOf rg).foldl (fun t o => t.restoreOut p sec o) s2
  else if code = 3 then (sec.outsOf rg).foldl (fun t o => t.zeroOut p o) s2
  else s2

/-- The run of CARRY.BEGIN on the core's role. -/
def carryRun (x : Ctx) (region : BitVec 12) (expired : Bool) (s : State) : Eng :=
  let p := x.core
  let r := region.toNat
  match s.roleOf p, (s.coreSec p).bind (fun sec => (sec.regions.find? (fun g => g.region == r)).map (fun g => (sec, g))) with
  | some l, some (sec, rg) =>
    let open_ := fun (t : State) =>
      let t1 := t.modCore p (fun c => { c with region := some r })
      { t1 with weave := { t1.weave with openedSince :=
          if t1.weave.openedSince.contains (regionKey l r) then t1.weave.openedSince else regionKey l r :: t1.weave.openedSince } }
    if Tbl.get (fun _ => 0) (s.core p).decided r ≠ 0 then .done (open_ s)
    else
      let m := s.readMap rg
      if m = .incomplete ∧ expired = false then .wait
      else .done (open_ (s.decideRegion p l sec rg m))
  | _, _ => .halt s haltIllegal (illegalInfo 0x00 0x09) 0

/-- CARRY.BEGIN: opens carry region r (R247, R248). A region already open, or not declared by the role, is one that the
threader rejects. -/
def execCarryBegin (x : Ctx) (region : BitVec 12) (s : State) : Out :=
  engine x (.carryBegin x region) 0x00 0x09
    (region.toNat != 0 && !isLoose x && (s.core x.core).region.isNone) s (carryRun x region)

/-- CARRY.END: closes the open carry region (R247). -/
def execCarryEnd (x : Ctx) (s : State) : Out :=
  issue x 0x00 0x0A (!isLoose x && (s.core x.core).region.isSome) s (fun s =>
    (s.modCore x.core (fun c => { c with region := none })).advance x)

end Sys2Proof.Machine
end

