-- ==== Sys2Proof/Machine/Exp.lean ====
section
/-! DEFINITION. The exponential, the logistic function and division of the vector engine, rounded once to binary32
(07_vision_operators.md R201, R204), and comparisons of binary32 values. -/

namespace Sys2Proof.Machine

/-- Fraction bits of the fixed-point exponential: its relative error stays below 2^-180. -/
def expBits : Nat := 200

/-- Partial sums of the exponential series at x = X / 2^200: n more terms, of which t is the next and k its index. -/
def expSum (X : Nat) : Nat → Nat → Nat → Nat → Nat
  | 0, _, _, acc => acc
  | n + 1, k, t, acc => expSum X n (k + 1) (t * X / ((k + 1) * 2 ^ expBits)) (acc + t)

/-- e^x for x = X / 2^200, 0 ≤ x ≤ 128, in units of 2^-200. -/
def expFix (X : Nat) : Nat := expSum X 700 0 (2 ^ expBits) 0

/-- The magnitude of a finite binary32 value in units of 2^-200. -/
def magFix (m : Nat) (e : Int) : Nat := m * 2 ^ (e + (expBits : Int)).toNat

/-- ex(x) of R204: the binary32 value nearest to e^x; beyond the range +∞; NaN gives NaN. -/
def expF (x : Nat) : Nat :=
  match decodeF fp32 x with
  | .nan => nan32
  | .inf s => if s then 0 else fp32.infBits
  | .fin s m e =>
    let X := magFix m e
    if 128 * 2 ^ expBits < X then (if s then 0 else fp32.infBits)
    else if s then roundFp32 false (2 ^ 600 / expFix X) (-400)
    else roundFp32 false (expFix X) (-200)

/-- sig(x) of R204: the binary32 value nearest to 1 / (1 + e^-x). -/
def sigF (x : Nat) : Nat :=
  match decodeF fp32 x with
  | .nan => nan32
  | .inf s => if s then 0 else 0x3F800000
  | .fin s m e =>
    let X := magFix m e
    if 128 * 2 ^ expBits < X then (if s then 0 else 0x3F800000)
    else
      let E := expFix X
      if s then roundFp32 false (2 ^ 600 / (E + 2 ^ 200)) (-400)
      else roundFp32 false (E * 2 ^ 400 / (E + 2 ^ 200)) (-400)

/-- A binary32 value divided by a positive integer, rounded once (R201). -/
def fdivNat (ftz : Bool) (x d : Nat) : Nat × Bool :=
  let y := flush32 ftz x
  match decodeF fp32 y.1 with
  | .nan => (nan32, y.2)
  | .inf s => (fp32.signBit s + fp32.infBits, y.2)
  | .fin s m e =>
    if m = 0 ∨ d = 0 then (fp32.signBit s, y.2)
    else
      let n := m * 2 ^ 80
      let q := 2 * (n / d) + (if n % d = 0 then 0 else 1)
      let r := flush32 ftz (roundFp32 s q (e - 81))
      (r.1, y.2 || r.2)

/-- The order of non-NaN binary32 values, zeros equal. -/
def fval (b : Nat) : Int := if b % 2 ^ 31 = 0 then 0 else if b / 2 ^ 31 % 2 = 1 then -((b % 2 ^ 31 : Nat) : Int) else ((b : Nat) : Int)

/-- a > b as binary32 values: false when either is a NaN. -/
def fgt (a b : Nat) : Bool := !isNan32 a && !isNan32 b && decide (fval b < fval a)

/-- a ≥ b as binary32 values: false when either is a NaN. -/
def fge (a b : Nat) : Bool := !isNan32 a && !isNan32 b && decide (fval b ≤ fval a)

/-- round_half_even of an exact quotient by a positive integer. -/
def rheDiv (n : Int) (d : Nat) : Int :=
  let f := n / (d : Int)
  let r := n % (d : Int)
  if 2 * r < d then f else if (d : Int) < 2 * r then f + 1 else f + f % 2

/-- round_half_even of a finite binary32 value to an integer. -/
def fround (b : Nat) : Int :=
  match decodeF fp32 b with
  | .fin s m e => roundToInt s m e 0
  | _ => 0

end Sys2Proof.Machine
end

