-- ==== Sys2Proof/Machine/Matrix.lean ====
section
/-! DEFINITION. The matrix pass (03_matrix_engines.md R81 to R102; 09 R255): operand pairs, ganging, the arithmetic of R84 and
R85, the accumulator tiles and the pass counters. -/

namespace Sys2Proof.Machine

/-- Home of entry (row, column) of tile t of engine e of core p (R87). -/
def accAddr (p e t row col : Nat) : Nat := coreBase p + accOff + e * 0x10000 + t * 0x1000 + (row * 32 + col) * 4

/-- Reduction indices per PE row of a pair (Table, Operand pairs): 2 for INT4 and bell-4. -/
def kpeOf (pair : Nat) : Nat := if pair = 1 ∨ pair = 2 then 2 else 1

/-- Issue interval of a pair. -/
def qOf (pair : Nat) : Nat := if 4 ≤ pair then 4 else 1

/-- Weight tile bytes of a pair. -/
def tileBytes (pair : Nat) : Nat := if pair = 2 then 1056 else if 4 ≤ pair then 2048 else 1024

/-- Floating pairs: FP8, BF16, FP16. -/
def fltPair (pair : Nat) : Bool := decide (3 ≤ pair)

/-- The activation format code forms an operand pair with the weights of pair (R83). -/
def actPairs (pair fmt : Nat) : Bool :=
  match pair with
  | 0 => fmt == 3 || fmt == 4
  | 1 => fmt == 0 || fmt == 1 || fmt == 3 || fmt == 4
  | 2 => fmt == 0 || fmt == 1 || fmt == 3 || fmt == 4
  | 3 => fmt == 8 || fmt == 9
  | 4 => fmt == 0xB
  | _ => fmt == 0xA

/-- The engine-side format of a weight stream loads into the weight shadow of pair. -/
def weightPairs (pair fmt : Nat) : Bool :=
  match pair with
  | 0 => fmt == 3
  | 1 => fmt == 0
  | 2 => fmt == 2
  | 3 => fmt == 8 || fmt == 9
  | 4 => fmt == 0xB
  | _ => fmt == 0xA

/-- Row blocks of a ganging mode: 0 independent, 1 2×2, 2 1×4, 3 4×1 (R92). -/
def gangBlocks (mode : Nat) : Nat := if mode = 1 then 2 else if mode = 3 then 4 else 1

/-- Where the results of column group c go, and the engine that holds the weights of row block j for it (Table, Ganging
modes): result engine and engines by row block. -/
def gangCols (mode target : Nat) : List (Nat × List Nat) :=
  match mode with
  | 0 => [(target, [target])]
  | 1 => [(2, [0, 2]), (3, [1, 3])]
  | 2 => [(0, [0]), (1, [1]), (2, [2]), (3, [3])]
  | _ => [(3, [0, 1, 2, 3])]

/-- The engines that a pass drives, in engine order, each with its row block. -/
def passEngines (mode target : Nat) : List (Nat × Nat) :=
  match mode with
  | 0 => [(target, 0)]
  | 1 => [(0, 0), (1, 0), (2, 1), (3, 1)]
  | 2 => [(0, 0), (1, 0), (2, 0), (3, 0)]
  | _ => [(0, 0), (1, 1), (2, 2), (3, 3)]

/-- The weight of PE row i, half h, column n of a tile: a signed integer for the integer pairs (R83, R140). -/
def tileInt (w : WTile) (pair i h n : Nat) : Int :=
  let b := w.bytes.getD (i * 32 + n) 0
  match pair with
  | 0 => intOf ⟨true, 8⟩ b
  | 1 => intOf ⟨true, 4⟩ (b / 16 ^ h % 16)
  | _ => bell4Level (b / 16 ^ h % 16)

/-- Group shift of column n of a bell-4 tile (R141). -/
def tileShift (w : WTile) (n : Nat) : Int := intOf ⟨true, 8⟩ (w.bytes.getD (1024 + n) 0)

/-- The weight of PE row i, column n of a floating tile as binary32, flushed under ftz (R115). -/
def tileF (w : WTile) (pair : Nat) (ftz : Bool) (i n : Nat) : Nat :=
  let f := if pair = 3 then (if w.fmt = 9 then fpE5M2 else fpE4M3) else if pair = 4 then bf16 else fp16
  let v := if pair = 3 then w.bytes.getD (i * 32 + n) 0 else sub w.bytes (2 * (i * 32 + n)) 2
  (widenF f ftz v).1

/-- An activation as the integer the array multiplies: 9-bit signed (R83, R136). -/
def actInt (fmt bits : Nat) : Int :=
  match intFmtOf fmt with
  | some f => intOf f bits
  | none => 0

/-- An activation as binary32. -/
def actF (fmt : Nat) (ftz : Bool) (bits : Nat) : Nat :=
  match fltOf fmt with
  | some f => (widenF f ftz bits).1
  | none => 0

/-- What a pass works on: pair, formats, alignment, shift base, row masks by block, tiles by engine. -/
structure PassCtx where
  pair : Nat
  fmt : Nat
  align : Nat
  base : Int
  rmask : List Nat
  tiles : Tbl WTile
  ftz : Bool

/-- The tile of an engine in a pass. -/
def PassCtx.tile (c : PassCtx) (e : Nat) : WTile := Tbl.get (fun _ => ⟨0, 0, [], Tag.clean⟩) c.tiles e

/-- Sum of a row block for one column (R84): a is the activation vector. -/
def PassCtx.blockSum (c : PassCtx) (a : List Nat) (e j n : Nat) : Int :=
  let kpe := kpeOf c.pair
  (List.range 32).foldl (fun s i =>
    if (c.rmask.getD j 0).testBit i then
      (List.range kpe).foldl (fun s h => s + actInt c.fmt (a.getD ((j * 32 + i) * kpe + h) 0) * tileInt (c.tile e) c.pair i h n) s
    else s) 0

/-- Shift of a row block for one column, and whether it was clamped (R84). -/
def PassCtx.shiftOf (c : PassCtx) (e n : Nat) : Nat × Bool :=
  if c.pair = 2 then
    let g := tileShift (c.tile e) n - c.base
    let k := clampInt g 0 7
    (k.toNat, decide (k ≠ g))
  else (0, false)

/-- column_int of R84 over the row blocks of a column group, top to bottom. -/
def PassCtx.columnInt (c : PassCtx) (a : List Nat) (es : List Nat) (n : Nat) : Int :=
  (es.zip (List.range es.length)).foldl (fun col (e, j) => col + c.blockSum a e j n * (2 ^ (c.shiftOf e n).1 : Nat)) 0

/-- The column sum of R85: the products of the unmasked rows in increasing k, each addition rounded. none is no product. -/
def PassCtx.columnF (c : PassCtx) (a : List Nat) (es : List Nat) (n : Nat) : Nat :=
  let r := (es.zip (List.range es.length)).foldl (fun acc (e, j) =>
    (List.range 32).foldl (fun acc i =>
      if (c.rmask.getD j 0).testBit i then
        let p := (fmul c.ftz (actF c.fmt c.ftz (a.getD (j * 32 + i) 0)) (tileF (c.tile e) c.pair c.ftz i n)).1
        match acc with
        | none => some p
        | some s => some (fadd c.ftz s p).1
      else acc) acc) (none : Option Nat)
  r.getD 0

/-- A product or a sum of a column was flushed (R115, sticky): some operand or intermediate of a floating pass is subnormal
under ftz. -/
def PassCtx.columnFlushed (c : PassCtx) (a : List Nat) (es : List Nat) (n : Nat) : Bool :=
  c.ftz && ((es.zip (List.range es.length)).foldl (fun (acc : Option Nat × Bool) (e, j) =>
    (List.range 32).foldl (fun (acc : Option Nat × Bool) i =>
      if (c.rmask.getD j 0).testBit i then
        let p := fmul c.ftz (actF c.fmt false (a.getD (j * 32 + i) 0)) (tileF (c.tile e) c.pair false i n)
        match acc.1 with
        | none => (some p.1, acc.2 || p.2)
        | some s =>
          let t := fadd c.ftz s p.1
          (some t.1, acc.2 || p.2 || t.2)
      else acc) acc) ((none : Option Nat), false)).2

/-- result_int of R84 on one entry: the entry written and whether a value left the INT32 range. -/
def PassCtx.entryInt (c : PassCtx) (acc : Bool) (old : Nat) (col : Int) : Nat × Bool :=
  let v := col * (2 ^ c.align : Nat)
  let t := if acc then intOf ⟨true, 32⟩ old + v else v
  (intBits 32 (wrap32 t), !(inInt32 col && inInt32 v && inInt32 t))

/-- One vector's row of one column group is written (R84, R85, R86): the tile row's 32 entries. -/
def State.passRow (s : State) (p : Nat) (c : PassCtx) (acc valid : Bool) (a : List Nat) (re : Nat) (es : List Nat)
    (t row : Nat) : State :=
  (List.range 32).foldl (fun u n =>
    let h := accAddr p re t row n
    let old := u.le h 4
    if valid = false ∧ acc = true then u
    else if fltPair c.pair then
      let col := if valid then c.columnF a es n else 0
      let r := if acc then fadd c.ftz old col else (col, false)
      let fl := (valid && c.columnFlushed a es n) || r.2
      (u.setLe h 4 r.1).stickyIf fl (Reg.CORE_NUMSTAT p) 1
    else
      let col := if valid then c.columnInt a es n else 0
      let r := c.entryInt acc old col
      let cl := valid && es.any (fun e => (c.shiftOf e n).2)
      ((u.setLe h 4 r.1).stickyIf r.2 (Reg.CORE_MESTAT p re) 16).stickyIf cl (Reg.CORE_MESTAT p re) 17) s

/-- Set bits of a 32-bit mask. -/
def popcount32 (m : Nat) : Nat := ((List.range 32).filter (fun i => m.testBit i)).length

/-- The counters of R102 for one engine of a pass. -/
def State.passCount (s : State) (p e : Nat) (m masked : Nat) (q macs : Nat) (gated : Bool) : State :=
  let s1 := ((s.satAdd (Reg.CORE_MEPASS p e) 1).wrapAdd (Reg.CORE_MEBUSY p e) (q * m)).wrapAdd (Reg.CORE_MEGATED p e)
    (q * (if gated then m else masked))
  let total := Tbl.get (fun _ => 0) (s1.core p).meactRem e + (if gated then 0 else macs)
  (s1.wrapAdd (Reg.CORE_MEACT p e) (total / 1024)).modCore p (fun c =>
    { c with meactRem := Tbl.set (fun _ => 0) c.meactRem e (total % 1024) })

/-- The weight tile of engine e of core p. -/
def State.weight (s : State) (p e : Nat) : Option WTile := Tbl.get (fun _ => none) (s.core p).weights e

/-- Sets the weight tile of an engine. -/
def State.setWeight (s : State) (p e : Nat) (w : Option WTile) : State :=
  s.modCore p (fun c => { c with weights := Tbl.set (fun _ => none) c.weights e w })

/-- Packed bytes of a weight tile's elements. -/
def packTile (fmt : Nat) (es : List Elem) : List Nat := packRow fmt (es.map Elem.bits)

/-- Loads the weight tiles of a pass into its engines from slot k (R82, R93): none while vectors are absent. -/
def State.loadTiles (s : State) (p pair k : Nat) (expired : Bool) : List (Nat × Nat) → Option State
  | [] => some s
  | (e, _) :: r =>
    let fmt := match (s.slot p k).desc with | some d => d.fmtEng | none => (if pair = 2 then 2 else 3)
    let n := tileBytes pair * 8 / (if pair = 1 ∨ pair = 2 then 4 else if 4 ≤ pair then 16 else 8)
    match s.take p k n expired with
    | none => none
    | some (es, t) =>
      let w : WTile := ⟨pair, fmt, packTile (if pair = 1 ∨ pair = 2 then 2 else if 4 ≤ pair then 0xB else 3) es, joinTags (es.map Elem.tag)⟩
      ((t.nanIn p k es).setWeight p e (some w)).loadTiles p pair k expired r

/-- A gated pass with new weights loads none: an engine that holds no tile holds an undefined one for the passes after it. -/
def State.gateTiles (s : State) (p pair : Nat) (es : List (Nat × Nat)) : State :=
  es.foldl (fun t (e, _) =>
    match t.weight p e with
    | some _ => t
    | none =>
      let r := t.freeBytes (tileBytes pair)
      r.2.setWeight p e (some ⟨pair, 8, r.1, Tag.clean⟩)) s

/-- The tiles of the engines of a pass; a tile loaded under a shorter pair is continued by free bytes. -/
def State.passTiles (s : State) (p pair : Nat) : List (Nat × Nat) → Tbl WTile × State
  | [] => ([], s)
  | (e, _) :: r =>
    match s.weight p e with
    | none => s.passTiles p pair r
    | some w =>
      let x := s.freeBytes (tileBytes pair - w.bytes.length)
      let t := x.2.passTiles p pair r
      (Tbl.insert e { w with bytes := w.bytes ++ x.1 } t.1, t.2)

/-- info of ME_CONFIG. -/
def meInfo (target cause : Nat) : Nat := target % 4 + cause * 4

/-- The vectors of a pass, one list of K elements each. -/
def vectorsOf (k m : Nat) (es : List Elem) : List (List Elem) := rowsOf k m es

/-- Key of a tile row. -/
def rowKey (e t row : Nat) : Nat := (e * 16 + t) * 32 + row

/-- A tile row holds the result of masked vectors alone (R129): it is not counted by what reads it. -/
def State.rowMasked (s : State) (p e t row : Nat) : Bool := Tbl.get (fun _ => false) (s.core p).maskedRows (rowKey e t row)

/-- Remembers whether the vector that wrote a tile row was masked. -/
def State.markRow (s : State) (p e t row : Nat) (acc valid : Bool) : State :=
  let b := !valid && (!acc || s.rowMasked p e t row)
  s.modCore p (fun c => { c with maskedRows := Tbl.set (fun _ => false) c.maskedRows (rowKey e t row) b })

/-- The writes of a pass: every vector of every column group, then the tags of the tiles (R86, R524). -/
def State.passWrite (s : State) (p : Nat) (c : PassCtx) (f : MPass) (mode : Nat) (vs : List (List Elem)) (tag : Tag) : State :=
  let isG := (f.target.toNat == 4)
  let cols := gangCols (if isG then mode else 0) f.target.toNat
  let s1 := cols.foldl (fun u (re, es) =>
    (vs.zip (List.range vs.length)).foldl (fun u (v, m) =>
      (u.passRow p c f.acc (v.all Elem.valid) (v.map Elem.bits) re es (f.t0.toNat + m / 32) (m % 32)).markRow p re
        (f.t0.toNat + m / 32) (m % 32) f.acc (v.all Elem.valid)) u) s
  cols.foldl (fun u (re, _) =>
    (List.range ((vs.length + 31) / 32)).foldl (fun u i =>
      let t := f.t0.toNat + i
      let rows := min 32 (vs.length - 32 * i)
      let key := 4096 + re * 16 + t
      let old := u.blockTag p key
      u.setBlockTag p key (if rows = 32 ∧ f.acc = false then tag else tag.join old)) u) s1

/-- The row masks of the blocks of a pass, from S(rsel + j); beyond S31, which the threader rejects where it knows the mode, a mask is
a free value (R255). -/
def State.rowMasks (s : State) (x : Ctx) (rsel blocks : Nat) : List Nat × State :=
  if rsel = 0x3F then (List.replicate blocks 0xFFFFFFFF, s)
  else (List.range blocks).foldl (fun (acc : List Nat × State) j =>
    if rsel + j < 32 then (acc.1 ++ [((acc.2.ctx x).getS (rsel + j)).toNat], acc.2)
    else
      let r := acc.2.free 32
      (acc.1 ++ [r.1], r.2)) ([], s)

/-- The run of MPASS (R255). -/
def mpassRun (x : Ctx) (f : MPass) (expired : Bool) (s0 : State) : Eng :=
  let p := x.core
  let masks := s0.rowMasks x f.rsel.toNat (if f.target.toNat = 4 then max 1 (gangBlocks (s0.fld (Reg.CORE_GANG p) 2 2)) else 1)
  let s := masks.2
  let pair := f.pair.toNat
  let mode := s.fld (Reg.CORE_GANG p) 2 2
  let target := f.target.toNat
  let m := f.mcount.toNat + 1
  let isG := target == 4
  let gmode := if isG then (if mode = 0 then 2 else mode) else 0
  let engs := passEngines gmode target
  let blocks := gangBlocks gmode
  let ak := f.aslot.toNat
  let wk := f.wslot.toNat
  let asl := s.slot p ak
  let wsl := s.slot p wk
  let afmt := match asl.desc, asl.feeds with
    | some d, true => some d.fmtEng
    | _, _ => none
  let align := if pair ≤ 1 then f.shf.toNat % 32 else 0
  if (match afmt with | some a => !actPairs pair a | none => false) || decide (24 < align) || (fltPair pair && f.shf.toNat != 0) then
    .halt s haltMeConfig (meInfo target 0) 0
  else if !f.new && !engs.all (fun e => (s.weight p e.1).isSome) then .halt s haltMeConfig (meInfo target 1) 0
  else if (mode == 0) == isG then .halt s haltMeConfig (meInfo target 2) 0
  else if 16 < f.t0.toNat + (m + 31) / 32 then
    .halt s haltAccRange (target % 4 + f.t0.toNat * 4 + (m + 31) / 32 * 64) 0
  else if f.new && wsl.active && (match wsl.desc with | some d => d.kind == 1 || (d.kind == 0 && !weightPairs pair d.fmtEng) | none => false) then
    .halt s haltSeFormat (wk + wsl.index * 16) 0
  else
    let kpe := kpeOf pair
    let q := qOf pair
    let rmask := masks.1
    let mark := fun (t : State) => engs.foldl (fun u e => u.setFld (Reg.CORE_MESTAT p e.1) 8 4 f.t0.toNat) t
    if s.gated x then
      let s1 := if f.new then s.gateTiles p pair engs else s
      .done (mark (engs.foldl (fun t e => t.passCount p e.1 m 0 q 0 true) s1))
    else
      match s.take p ak (m * blocks * 32 * kpe) expired with
      | none => .wait
      | some (es, s1) =>
        match (if f.new then s1.loadTiles p pair wk expired engs else some s1) with
        | none => .wait
        | some s2 =>
          let s3 := s2.nanIn p ak es
          let vs := vectorsOf (blocks * 32 * kpe) m es
          let ts := s3.passTiles p pair engs
          let base := if pair = 2 then intOf ⟨true, 8⟩ f.shf.toNat else 0
          let c : PassCtx := ⟨pair, afmt.getD 3, align, base, rmask, ts.1, s.ftz x⟩
          let wt := joinTags (engs.map (fun e => (c.tile e.1).tag))
          let tag := ((joinTags (es.map Elem.tag)).join wt).join (s.regionTag x)
          let s4 := ts.2.passWrite p c f mode vs tag
          let masked := (vs.filter (fun v => !v.all Elem.valid)).length
          .done (mark (engs.foldl (fun t e =>
            t.passCount p e.1 m masked q (popcount32 (rmask.getD e.2 0) * (m - masked) * 32 * kpe) false) s4))

/-- MPASS: one pass on an engine or the gang; while a ganging change is pending no pass issues (R93, R255). -/
def execMpass (x : Ctx) (f : MPass) (s : State) : Out :=
  if s.bit (Reg.CORE_GANG x.core) 4 then .next s
  else engine x (.mpass x f) 0x0C 0x00 f.wf s (mpassRun x f)

end Sys2Proof.Machine
end

