-- ==== Sys2Proof/Machine/Vector.lean ====
section
/-! DEFINITION. The vector engine's elementwise, requantising, combining and statistics commands (04_number_formats.md R121,
R126 to R131; 05 R143 to R151; 09 R256 to R258, R264). -/

namespace Sys2Proof.Machine

/-! ### Elementwise commands (R256) -/

/-- What an element computes: its bits, whether it counts as saturated, and whether something was flushed. -/
structure VRes where
  bits : Nat
  sat : Bool
  stick : Bool
  deriving DecidableEq, Repr

/-- An integer result narrowed to INT32 (R110). -/
def vInt (x : Int) (sat : Bool) : VRes :=
  let r := narrowInt x (-2147483648) 2147483647 32 sat
  ⟨intBits 32 r.1, r.2, false⟩

/-- A floating result. -/
def vFlt (r : Nat × Bool) : VRes := ⟨r.1, false, r.2⟩

/-- Signed value of a 32-bit element. -/
def sInt (b : Nat) : Int := intOf ⟨true, 32⟩ b

/-- Elements of an array of 32-bit words. -/
def State.words (s : State) (h n : Nat) : List Nat := (List.range n).map (fun i => s.le (h + 4 * i) 4)

/-- NumFx of the results of a vector command: floating results are stored through the store path (R108). -/
def vFx (fp : Bool) (rs : List VRes) : NumFx :=
  ⟨(rs.filter (fun r => r.sat)).length, 0, rs.any (fun r => r.stick), false, fp && rs.any (fun r => isNan32 r.bits),
    fp && rs.any (fun r => match decodeF fp32 r.bits with | .inf _ => true | _ => false)⟩

/-- Numerics bits of one element's tag in counter mode (R130). -/
def State.elemTag (s : State) (p : Nat) (base : Tag) (sat flush : Bool) : Tag :=
  if (s.core p).statMode = 2 then { base with sat := base.sat || sat, flush := base.flush || flush } else base

/-- The run of a vector command: out says whether the results are floating. -/
def vopRun (x : Ctx) (f : Vop) (out : Bool) (g : Bool → Nat → Nat → VRes) (_ : Bool) (s : State) : Eng :=
  let p := x.core
  let n := f.n.toNat + 1
  s.withArray x f.aA 4 (4 * n) fun a =>
    let fin := fun (bs : List Nat) (bt : Tag) =>
      s.withArray x f.dA 4 (4 * n) fun d =>
        if s.gated x then .done s
        else
          let rs := ((s.words a n).zip bs).map (fun (u, v) => g (s.ftz x) u v)
          let base := ((s.tagRange a (4 * n)).join bt).join (s.regionTag x)
          let s1 := s.putTagged d (rs.flatMap (fun r => taggedBytes 4 r.bits (s.elemTag p base r.sat false)))
          .done (s1.numFlags p (vFx out rs))
    match f.b with
    | .sel v => fin (List.replicate n (s.sel x v).toNat) Tag.clean
    | .arr r => s.withArray x r 4 (4 * n) fun b => fin (s.words b n) (s.tagRange b (4 * n))

/-- VADD: narrow_int(a + b), or fp32_add(a, b). -/
def execVadd (x : Ctx) (f : Vop) (s : State) : Out :=
  engine x (.vadd x f) 0x10 0x00 f.wf s (vopRun x f f.fp fun z a b => if f.fp then vFlt (fadd z a b) else vInt (sInt a + sInt b) f.sat)
/-- VSUB: narrow_int(a − b), or a − b. -/
def execVsub (x : Ctx) (f : Vop) (s : State) : Out :=
  engine x (.vsub x f) 0x10 0x01 f.wf s (vopRun x f f.fp fun z a b => if f.fp then vFlt (fsub z a b) else vInt (sInt a - sInt b) f.sat)
/-- VMUL: narrow_int(a × b), or fp32_mul(a, b). -/
def execVmul (x : Ctx) (f : Vop) (s : State) : Out :=
  engine x (.vmul x f) 0x10 0x02 f.wf s (vopRun x f f.fp fun z a b => if f.fp then vFlt (fmul z a b) else vInt (sInt a * sInt b) f.sat)
/-- VMIN: signed minimum, or the floating minimum with −0 below +0. -/
def execVmin (x : Ctx) (f : Vop) (s : State) : Out :=
  engine x (.vmin x f) 0x10 0x03 f.wf s (vopRun x f f.fp fun z a b =>
    if f.fp then vFlt (fminmax z false a b) else ⟨if sInt a ≤ sInt b then a else b, false, false⟩)
/-- VMAX: signed maximum, or the floating maximum with +0 above −0. -/
def execVmax (x : Ctx) (f : Vop) (s : State) : Out :=
  engine x (.vmax x f) 0x10 0x04 f.wf s (vopRun x f f.fp fun z a b =>
    if f.fp then vFlt (fminmax z true a b) else ⟨if sInt a ≤ sInt b then b else a, false, false⟩)
/-- VAND: a and b. -/
def execVand (x : Ctx) (f : Vop) (s : State) : Out :=
  engine x (.vand x f) 0x10 0x05 f.wfInt s (vopRun x f false fun _ a b => ⟨a &&& b, false, false⟩)
/-- VOR: a or b. -/
def execVor (x : Ctx) (f : Vop) (s : State) : Out :=
  engine x (.vor x f) 0x10 0x06 f.wfInt s (vopRun x f false fun _ a b => ⟨a ||| b, false, false⟩)
/-- VXOR: a xor b. -/
def execVxor (x : Ctx) (f : Vop) (s : State) : Out :=
  engine x (.vxor x f) 0x10 0x07 f.wfInt s (vopRun x f false fun _ a b => ⟨a ^^^ b, false, false⟩)
/-- VSHL: narrow_int(a × 2^(b and 31)). -/
def execVshl (x : Ctx) (f : Vop) (s : State) : Out :=
  engine x (.vshl x f) 0x10 0x08 f.wfInt s (vopRun x f false fun _ a b => vInt (sInt a * (2 ^ (b % 32) : Nat)) f.sat)
/-- VSRA: a >> (b and 31), arithmetic. -/
def execVsra (x : Ctx) (f : Vop) (s : State) : Out :=
  engine x (.vsra x f) 0x10 0x09 f.wfInt s (vopRun x f false fun _ a b => ⟨intBits 32 (sInt a / (2 ^ (b % 32) : Nat)), false, false⟩)
/-- VCVTI: FP32 to INT32, round_half_even, R113. -/
def execVcvti (x : Ctx) (f : Vop) (s : State) : Out :=
  engine x (.vcvti x f) 0x10 0x0A (f.wfUn && f.fp) s (vopRun x f false fun z a _ =>
    let r := fToInt z a (-2147483648) 2147483647 32 f.sat
    ⟨intBits 32 r.1, r.2.1, r.2.2⟩)
/-- VCVTF: INT32 to FP32, round_half_even. -/
def execVcvtf (x : Ctx) (f : Vop) (s : State) : Out :=
  engine x (.vcvtf x f) 0x10 0x0B (f.wfUn && !f.fp) s (vopRun x f true fun _ a _ => ⟨intToF32 (sInt a), false, false⟩)
/-- VCOPY: a; a floating element is an operand and a result under R106 and R115. -/
def execVcopy (x : Ctx) (f : Vop) (s : State) : Out :=
  engine x (.vcopy x f) 0x10 0x0C f.wfUn s (vopRun x f f.fp fun z a _ =>
    if f.fp then (if isNan32 a then ⟨nan32, false, false⟩ else vFlt (flush32 z a)) else ⟨a, false, false⟩)

/-! ### Sources of REQ, WCOMB and VMAXABS (R257) -/

/-- A 32-column source: accumulator tiles or a scratchpad array. -/
inductive Src where
  | tiles (e t : Nat)
  | array (h : Nat)
  deriving DecidableEq, Repr

/-- Home of the word of row m, column n. -/
def Src.addr (v : Src) (p m n : Nat) : Nat :=
  match v with
  | .tiles e t => accAddr p e (t + m / 32) (m % 32) n
  | .array h => h + 128 * m + 4 * n

/-- The tag of row m. -/
def Src.tag (v : Src) (s : State) (p m : Nat) : Tag := (s.tagAt (v.addr p m 0)).join (s.tagAt (v.addr p m 31))

/-- Row m holds the results of a masked vector (R129). -/
def Src.masked (v : Src) (s : State) (p m : Nat) : Bool :=
  match v with
  | .tiles e t => s.rowMasked p e (t + m / 32) (m % 32)
  | .array _ => false

/-- Continues with a source of rows rows, or raises ACC_RANGE past tile 15 or SE_ADDR outside the own scratchpad. -/
def State.withSrc (s : State) (x : Ctx) (mem : Bool) (src : BitVec 6) (rows : Nat) (k : Src → Eng) : Eng :=
  if mem then s.withArray x (src.setWidth 4) 4 (128 * rows) (fun h => k (.array h))
  else
    let e := src.toNat / 16
    let t := src.toNat % 16
    let n := (rows + 31) / 32
    if 16 < t + n then .halt s haltAccRange (e + t * 4 + n * 64) 0 else k (.tiles e t)

/-! ### REQ (R143 to R148, R257) -/

/-- The stored format that tgt names. -/
def reqFmt (t : Nat) : Nat :=
  match t with
  | 0 => 4
  | 1 => 3
  | 2 => 1
  | 3 => 0
  | 4 => 8
  | 5 => 9
  | 6 => 0xA
  | _ => 0xB

/-- A parameter entry at an address (R143, R147). -/
def State.reqEntry (s : State) (h : Nat) : ReqEntry := ⟨s.le h 4, s.le (h + 4) 4, s.le (h + 8) 4, s.le (h + 12) 4⟩

/-- One element that REQ delivers: its result, its column, its tag and whether it counts (R129, R146). -/
structure ReqElem where
  r : ReqOut
  col : Nat
  tag : Tag
  counts : Bool
  deriving DecidableEq, Repr

/-- The elements of a REQ, row by row (R257). -/
def State.reqElems (s : State) (x : Ctx) (f : Req) (src : Src) (pa c : Nat) : List ReqElem :=
  let p := x.core
  (List.range (f.rows.toNat + 1)).flatMap (fun m =>
    let tag := src.tag s p m
    let cnt := !src.masked s p m
    (List.range c).map (fun n =>
      let h := pa + 16 * (if f.chan then f.cbase.toNat + n else 0)
      let r := reqElem f.accF (s.le (src.addr p m n) 4) (s.reqEntry h) (reqTgt f.tgt.toNat) f.rnd.toNat f.sat (s.ftz x)
      ⟨r, n, tag.join (s.tagAt h), cnt⟩))

/-- The statistics view of an element. -/
def ReqElem.counted (e : ReqElem) (fmt : Nat) : Counted := ⟨fltOf fmt, intFmtOf fmt, e.r.bits, e.r.sat, e.r.flush⟩

/-- Max-abs key of an element: of the stored value, or of the biased accumulator with at = 1 (R148). -/
def ReqElem.key (e : ReqElem) (fmt : Nat) (accF at1 : Bool) : Key :=
  if at1 then (if accF then (true, keyF32 e.r.yf) else (false, some (keyInt e.r.y)))
  else match fltOf fmt, intFmtOf fmt with
    | some f, _ => (true, keyF32 (widenF f false e.r.bits).1)
    | none, some f => (false, some (keyInt (intOf f e.r.bits)))
    | none, none => (false, some 0)

/-- Numerics effects of a REQ's elements. -/
def reqFx (fmt : Nat) (es : List ReqElem) : NumFx :=
  ⟨(es.filter (fun e => e.r.sat)).length, (es.filter (fun e => e.r.flush)).length, es.any (fun e => e.r.stick), false,
    es.any (fun e => isNanEng fmt e.r.bits),
    es.any (fun e => match fltOf fmt with
      | some f => (match decodeF f e.r.bits with | .inf _ => true | _ => false)
      | none => false)⟩

/-- Delivers elements to the STORE in slot k, in iteration order (R253). -/
def State.deliver (s : State) (p k : Nat) (d : Desc) (es : List (Nat × Tag)) : State :=
  let t := s.slot p k
  match s.plan p d t.org t.aoff [] true with
  | .inl _ => s
  | .inr pls =>
    let room := pls.drop t.pos
    let s1 := s.writeElems p d.fmtMem (room.take es.length) (es.take room.length)
    let s2 := s1.setSlot p k { t with pos := t.pos + min es.length room.length }
    s2.stickyIf (decide (room.length < es.length)) (Reg.CORE_SESTAT p) 3

/-- Closes each row of odd length of a 4-bit STORE with its padding nibble (R104): the elements with one more at the end of
each row that they complete. -/
def State.padRows (s : State) (p k : Nat) (d : Desc) (n : Nat) : State :=
  let t := s.slot p k
  let c := d.cnt.getD 0 0 + 1
  if fmtBits d.fmtMem = 4 ∧ c % 2 = 1 then
    match s.plan p d t.org t.aoff [] true with
    | .inl _ => s
    | .inr pls => (List.range n).foldl (fun u i =>
        if (t.pos + i + 1) % c = 0 then
          match pls.getD (t.pos + i) none with
          | some (h, 0) => u.sePut p h (u.byte h % 16)
          | _ => u
        else u) s
  else s

/-- The run of REQ. -/
def reqRun (x : Ctx) (f : Req) (_ : Bool) (s : State) : Eng :=
  let p := x.core
  let k := f.oslot.toNat
  let t := s.slot p k
  let bad := (fun (_ : Unit) => Eng.halt s haltSeFormat (k + t.index * 16) 0)
  s.withSrc x f.srcMem f.src (f.rows.toNat + 1) fun src =>
    if t.active = false then bad ()
    else match t.bad, t.desc with
      | some _, _ => .done s
      | none, none => bad ()
      | none, some d =>
        let c := d.cnt.getD 0 0 + 1
        if 32 < c ∨ d.kind ≠ 2 ∨ d.fmtEng ≠ reqFmt f.tgt.toNat then bad ()
        else
          s.withArray x f.pA 16 (if f.chan then 16 * (f.cbase.toNat + c) else 16) fun pa =>
            if s.gated x ∨ t.carried = true then .done s
            else
              let es := s.reqElems x f src pa c
              let rt := s.regionTag x
              let s1 := s.padRows p k d es.length
              let s2 := s1.deliver p k d (es.map (fun e => (e.r.bits, (s.elemTag p e.tag e.r.sat e.r.flush).join rt)))
              let live := es.filter (fun e => e.counts)
              let fmt := d.fmtEng
              let s3 := s2.numFlags p (reqFx fmt es)
              let s4 := if 4 ≤ f.stat.toNat then s3.statistics p (f.stat.toNat - 4) (live.map (fun e => e.counted fmt)) else s3
              let s5 := if f.maxabs.toNat % 4 = 0 then s4 else
                live.foldl (fun u e => u.maxAbs p (f.maxabs.toNat % 4) (f.cbase.toNat + e.col)
                  (e.key fmt f.accF (decide (4 ≤ f.maxabs.toNat)))) s4
              .done s5

/-- REQ: requantises rows of accumulator or scratchpad values into a STORE stream (R257). -/
def execReq (x : Ctx) (f : Req) (s : State) : Out := engine x (.req x f) 0x11 0x00 (f.wf && f.rnd.toNat != 3) s (reqRun x f)

/-! ### WCOMB (R121, R258) -/

/-- Continues with the tiles of a class, none when it is absent. -/
def State.withClass (s : State) (c : WClass) (rows : Nat) (k : Option (Nat × Nat) → Eng) : Eng :=
  if c.present then
    (if 16 < c.tile.toNat + (rows + 31) / 32 then
      .halt s haltAccRange (c.engine.toNat + c.tile.toNat * 4 + (rows + 31) / 32 * 64) 0
    else k (some (c.engine.toNat, c.tile.toNat)))
  else k none

/-- Entry (m, n) of a class, 0 when it is absent. -/
def State.classVal (s : State) (p : Nat) (c : Option (Nat × Nat)) (m n : Nat) : Int :=
  match c with
  | some (e, t) => sInt (s.le (accAddr p e (t + m / 32) (m % 32) n) 4)
  | none => 0

/-- The tag of row m of a class. -/
def State.classTag (s : State) (p : Nat) (c : Option (Nat × Nat)) (m : Nat) : Tag :=
  match c with
  | some (e, t) => s.tagAt (accAddr p e (t + m / 32) 0 0)
  | none => Tag.clean

/-- The run of WCOMB. -/
def wcombRun (x : Ctx) (f : Wcomb) (_ : Bool) (s : State) : Eng :=
  let p := x.core
  let rows := f.rows.toNat + 1
  s.withClass f.c0 rows fun c0 => s.withClass f.c8 rows fun c8 => s.withClass f.c16 rows fun c16 =>
    s.withArray x f.dA 4 (128 * rows) fun d =>
      if s.gated x then .done s
      else
        let rt := s.regionTag x
        let out := (List.range rows).flatMap (fun m =>
          let tag := (((s.classTag p c0 m).join (s.classTag p c8 m)).join (s.classTag p c16 m)).join rt
          (List.range 32).map (fun n =>
            (wcomb (s.classVal p c0 m n) (s.classVal p c8 m n) (s.classVal p c16 m n) f.sh.toNat f.sat, tag)))
        let anySat := out.any (fun e => e.1.2)
        let s1 := s.putTagged d (out.flatMap (fun e => taggedBytes 4 (intBits 32 e.1.1) (s.elemTag p e.2 e.1.2 false)))
        .done ((s1.stickyIf anySat (Reg.CORE_NUMSTAT p) 0).stickyIf anySat (Reg.CORE_NUMSTAT p) 5)

/-- WCOMB: combines the class tiles of a split-form composition into INT32 results (R258). -/
def execWcomb (x : Ctx) (f : Wcomb) (s : State) : Out := engine x (.wcomb x f) 0x11 0x01 f.wf s (wcombRun x f)

/-! ### VMAXABS (R264) -/

/-- The key of one entry read as INT32 or FP32; a NaN gives none. -/
def vKey (fp ftz : Bool) (b : Nat) : Option Nat := if fp then keyF32 (flush32 ftz b).1 else some (keyInt (sInt b))

/-- The run of VMAXABS. -/
def vmaxabsRun (x : Ctx) (f : Vmaxabs) (_ : Bool) (s : State) : Eng :=
  let p := x.core
  let rows := f.rows.toNat + 1
  s.withSrc x f.srcMem f.src rows fun src =>
    if s.gated x then .done s
    else
      let vs := (List.range rows).flatMap (fun m => (List.range 32).map (fun n => s.le (src.addr p m n) 4))
      let mx := vs.foldl (fun a b => max a ((vKey f.fp (s.ftz x) b).getD 0)) 0
      let st := f.fp && vs.any (fun b => (flush32 (s.ftz x) b).2)
      .done ((s.modCtx x (fun c => c.setS f.rd.toNat (BitVec.ofNat 32 mx))).stickyIf st (Reg.CORE_NUMSTAT p) 1)

/-- VMAXABS: the largest key of rows × 32 entries, into a scalar register (R264). -/
def execVmaxabs (x : Ctx) (f : Vmaxabs) (s : State) : Out := engine x (.vmaxabs x f) 0x18 0x02 f.wf s (vmaxabsRun x f)

/-! ### STAT.OUT and MAXABS.OUT (R131, R151) -/

/-- Logical core and role epoch as the blocks report them; without a role neither is stated (free values). -/
def State.blockRole (s : State) (p : Nat) : Nat × Nat × State :=
  match s.roleOf p with
  | some l => (l, s.roleEpoch l, s)
  | none =>
    let a := s.free 8
    let b := a.2.free 8
    (a.1, b.1, b.2)

/-- Writes a statistics block at a 16-byte aligned writable device address, or raises SE_ADDR (R264). -/
def State.writeBlock (s : State) (x : Ctx) (an : BitVec 4) (bs : List Nat) (k : State → State) : Eng :=
  let a := ((s.ctx x).getA an.toNat).toNat
  match (if a % 16 = 0 then s.spaceAddr x.core 0 true a bs.length else none) with
  | none => .halt s haltSeAddr seAddrInfo a
  | some (h, _) =>
    let s1 := (bs.zip (List.range bs.length)).foldl (fun t (v, i) => t.sePut x.core (h + i) v) s
    let s2 := s1.healLines ((List.range bs.length).map (fun i => h + i))
    .done (k ((blockSpans h bs.length).foldl (fun t (lo, n) => t.tagWrite lo n Tag.clean) s2))

/-- The run of STAT.OUT. -/
def statOutRun (x : Ctx) (slot : BitVec 2) (dA : BitVec 4) (_ : Bool) (s : State) : Eng :=
  let p := x.core
  let k := slot.toNat
  let ws := (List.range 64).map (fun w => s.regN (statWord p k w))
  let r := s.blockRole p
  let c := s.core p
  let bs := ws.flatMap (leBytes 4) ++ leBytes 4 (Tbl.get (fun _ => 0) c.statElems k).toNat ++
    leBytes 4 (Tbl.get (fun _ => 0) c.statCmds k).toNat ++
    [c.statMode, (if Tbl.get (fun _ => false) c.statPartial k then 1 else 0) + (if ws.any (fun w => w == 0xFFFFFFFF) then 2 else 0),
      r.1, r.2.1] ++ leBytes 4 (s.regN Reg.WV_TICK)
  r.2.2.writeBlock x dA bs (fun t => t.clearStat p k false)

/-- STAT.OUT: copies one slot to a 272-byte block and clears the slot (R131). -/
def execStatOut (x : Ctx) (slot : BitVec 2) (dA : BitVec 4) (s : State) : Out :=
  engine x (.statOut x slot dA) 0x18 0x00 true s (statOutRun x slot dA)

/-- The run of MAXABS.OUT. -/
def maxabsOutRun (x : Ctx) (dA : BitVec 4) (_ : Bool) (s : State) : Eng :=
  let p := x.core
  let r := s.blockRole p
  let bs := leBytes 4 (s.regN (Reg.CORE_MAXABS_T p)) ++ leBytes 4 (s.regN (Reg.CORE_MAXABS_STAT p)) ++
    leBytes 4 (s.regN Reg.WV_TICK) ++ [r.1, r.2.1, 0, 0] ++
    (List.range 128).flatMap (fun i => leBytes 4 (s.regN (Reg.CORE_MAXABS_C p i)))
  r.2.2.writeBlock x dA bs (fun t => t.clearMax p true true)

/-- MAXABS.OUT: copies the max-abs registers to a 528-byte block and clears them (R151). -/
def execMaxabsOut (x : Ctx) (dA : BitVec 4) (s : State) : Out :=
  engine x (.maxabsOut x dA) 0x18 0x01 true s (maxabsOutRun x dA)

end Sys2Proof.Machine
end

