-- ==== Sys2Proof/Machine/Pool.lean ====
section
/-! DEFINITION. Pooling and depthwise convolution on the vector engine (07_vision_operators.md R193, R198 to R202; 09 R259). -/

namespace Sys2Proof.Machine

/-! ### Windows of a LOAD stream (R198) -/

/-- One tap of a window: the element delivered and whether its position lies inside the map. -/
structure Tap where
  e : Elem
  inside : Bool
  deriving DecidableEq, Repr

/-- The taps that a stream's elements are, in iteration order. -/
def tapsOf (d : Desc) (org : List Nat) (aoff : Nat) (es : List Elem) : List Tap :=
  (es.zip (idxLists d.cnt)).map (fun (e, i) => ⟨e, (d.elem org aoff [] i).isSome⟩)

/-- Channels, window taps and windows of an iteration: global pooling takes the whole map as one window. -/
def Desc.channels (d : Desc) : Nat := d.cnt.getD 0 0 + 1
def Desc.kernel (d : Desc) : Nat := (d.cnt.getD 1 0 + 1) * (d.cnt.getD 2 0 + 1)
def Desc.outs (d : Desc) : Nat := (d.cnt.getD 3 0 + 1) * (d.cnt.getD 4 0 + 1)

/-- The windows of a stream, each with the taps of every channel in increasing ky, then kx. -/
def windowsOf (c k n : Nat) (ts : List Tap) : List (List (List Tap)) :=
  (rowsOf (c * k) n ts).map (fun w =>
    (List.range c).map (fun ch => (List.range k).filterMap (fun i => w[i * c + ch]?)))

/-- The engine-side bits of the pad value. -/
def Desc.padEng (d : Desc) (ftz : Bool) : Nat := (loadPath d ftz d.padBits).1

/-- A LOAD stream into the vector engine, in window mode, or in linear mode where that is allowed (R253, R259). -/
def poolStream (d : Desc) (glob : Bool) : Bool :=
  d.kind == 0 && (d.window || glob) && (d.fmtEng == 7 || d.fmtEng == 0xC)

/-- The join of the tags of a window's taps. -/
def tapTags (ts : List Tap) : Tag := joinTags (ts.map (fun t => t.e.tag))

/-! ### Maximum and average (R199 to R202) -/

/-- What a window gives before narrowing: an integer or the bits of a binary32 value, and whether something was flushed. -/
inductive PoolVal where
  | int (x : Int)
  | flt (b : Nat) (flushed : Bool)
  deriving DecidableEq, Repr

/-- The pad value as a window's result. -/
def padVal (d : Desc) (ftz : Bool) : PoolVal :=
  if d.fmtEng = 7 then .int (sInt (d.padEng ftz)) else .flt (d.padEng ftz) false

/-- Max pooling of one window (R199). -/
def poolMax (d : Desc) (ftz : Bool) (ts : List Tap) : PoolVal :=
  match (ts.filter Tap.inside).map (fun t => t.e.bits) with
  | [] => padVal d ftz
  | b :: r =>
    if d.fmtEng = 7 then .int (r.foldl (fun m v => max m (sInt v)) (sInt b))
    else
      let x := r.foldl (fun (m : Nat × Bool) v => let y := fminmax ftz true m.1 v; (y.1, m.2 || y.2)) (fminmax ftz true b b)
      .flt x.1 x.2

/-- Average pooling of one window (R200, R201): the contributions of the mode, the divisor, the sum. -/
def poolAvg (d : Desc) (ftz : Bool) (f : Pool) (ts : List Tap) : PoolVal :=
  let valid := ts.filter Tap.inside
  let mode := if f.glob then 0 else f.divMode.toNat
  let con := if mode = 1 then valid else ts
  let div := if f.glob then ts.length else if mode = 1 then valid.length else if mode = 2 then f.fdiv.toNat else ts.length
  if con = [] then padVal d ftz
  else if d.fmtEng = 7 then .int (rheDiv (con.foldl (fun a t => a + sInt t.e.bits) 0) div)
  else
    let x := match con.map (fun t => t.e.bits) with
      | [] => (0, false)
      | b :: r => r.foldl (fun (m : Nat × Bool) v => let y := fadd ftz m.1 v; (y.1, m.2 || y.2)) (flush32 ftz b)
    let q := fdivNat ftz x.1 div
    .flt q.1 (x.2 || q.2)

/-- An element of the output: stored bits, saturated, flushed, something flushed within the arithmetic. -/
structure PoolOut where
  bits : Nat
  sat : Bool
  flush : Bool
  stick : Bool
  deriving DecidableEq, Repr

/-- A window's result in a stored format (R110, R111); none where the specification gives no conversion between an integer
and a floating format. -/
def poolStore (fmt : Nat) (sat ftz : Bool) (v : PoolVal) : Option PoolOut :=
  match v, intFmtOf fmt, fltOf fmt with
  | .int x, some f, _ =>
    let r := narrowInt x f.lo f.hi f.bits sat
    some ⟨intBits f.bits r.1, r.2, false, false⟩
  | .flt b st, none, some f =>
    if fmt = 0xC then some ⟨b, false, false, st⟩
    else
      let r := narrowFloat f sat ftz b
      some ⟨r.bits, r.sat, r.flush, st⟩
  | _, _, _ => none

/-- The stored elements of a list of results; a free value for each that has no conversion. -/
def State.poolStores (s : State) (fmt : Nat) (sat ftz : Bool) : List (PoolVal × Tag) → List (PoolOut × Tag) × State
  | [] => ([], s)
  | (v, t) :: r =>
    match poolStore fmt sat ftz v with
    | some o =>
      let x := s.poolStores fmt sat ftz r
      ((o, t) :: x.1, x.2)
    | none =>
      let y := s.free (fmtBits fmt)
      let x := y.2.poolStores fmt sat ftz r
      ((⟨y.1, false, false, false⟩, t) :: x.1, x.2)

/-- The bytes of one row of stored elements with their tags; two 4-bit elements share a byte. -/
def packTagged (fmt : Nat) (es : List (Nat × Tag)) : List (Nat × Tag) :=
  let per := if fmtBits fmt = 4 then 1 else fmtBits fmt / 8
  let tagOf := fun i => if fmtBits fmt = 4 then joinTags (((es.drop (2 * i)).take 2).map Prod.snd)
    else ((es[i / per]?).map Prod.snd).getD Tag.clean
  let bs := packRow fmt (es.map Prod.fst)
  (bs.zip (List.range bs.length)).map (fun (b, i) => (b, tagOf i))

/-- Bytes of one output position. -/
def pixelBytes (fmt c : Nat) : Nat := (c * fmtBits fmt + 7) / 8

/-- Numerics effects of stored outputs. -/
def poolFx (fmt : Nat) (os : List (PoolOut × Tag)) (nanIn : Bool) : NumFx :=
  ⟨(os.filter (fun o => o.1.sat)).length, (os.filter (fun o => o.1.flush)).length, os.any (fun o => o.1.stick), nanIn,
    os.any (fun o => isNanEng fmt o.1.bits),
    os.any (fun o => match fltOf fmt with
      | some f => (match decodeF f o.1.bits with | .inf _ => true | _ => false)
      | none => false)⟩

/-- The shape a command works on: the descriptor of its stream, or the one the threader checked when the entry failed. -/
def State.streamShape (s : State) (x : Ctx) (k : Nat) : Option Desc :=
  let t := s.slot x.core k
  match t.desc with
  | some d => some d
  | none => if t.bad.isSome then s.checkedDesc x t.index else none

/-- The elements and shape of a window command: it waits for its stream (R253), halts with SE_FORMAT where the stream's
descriptor is not allowed, and writes nothing where a failed entry leaves no shape. -/
def State.withWindows (s : State) (x : Ctx) (k : Nat) (expired : Bool) (ok : Desc → Bool)
    (run : Desc → List Tap → State → Eng) : Eng :=
  let t := s.slot x.core k
  match s.streamShape x k with
  | none => if t.bad.isSome ∨ expired ∨ s.gated x then .done s else .wait
  | some d =>
    if ok d = false then .halt s haltSeFormat (k + t.index * 16) 0
    else if s.gated x then .done s
    else match s.take x.core k d.total expired with
      | none => .wait
      | some (es, s1) => run d (tapsOf d t.org t.aoff es) (s1.nanIn x.core k es)

/-- The run of POOL. -/
def poolRun (x : Ctx) (f : Pool) (expired : Bool) (s : State) : Eng :=
  let p := x.core
  let ok := fun (d : Desc) => poolStream d f.glob && (!f.glob || (d.kernel == 1 && decide (d.outs ≤ 2 ^ 24)))
  s.withWindows x f.islot.toNat expired ok fun d ts s =>
    let c := d.channels
    let k := if f.glob then d.outs else d.kernel
    let n := if f.glob then 1 else d.outs
    let fmt := if f.ofmt.toNat = 0 then d.fmtMem else if f.ofmt.toNat = 1 then 7 else 0xC
    let ts' := if f.glob then ts.map (fun t => { t with inside := true }) else ts
    s.withArray x f.dA 1 (n * pixelBytes fmt c) fun h =>
      let rt := s.regionTag x
      let vals := (windowsOf c k n ts').flatMap (fun w => w.map (fun w =>
        (if f.avg then poolAvg d (s.ftz x) f w else poolMax d (s.ftz x) w, (tapTags w).join rt)))
      let o := s.poolStores fmt f.sat (s.ftz x) vals
      let es := o.1.map (fun (e, t) => (e.bits, o.2.elemTag p t e.sat e.flush))
      let s1 := o.2.putTagged h ((rowsOf c n es).flatMap (packTagged fmt))
      .done (s1.numFlags p (poolFx fmt o.1 false))

/-- POOL: maximum or average of the windows of a stream, written channel-last (R259). -/
def execPool (x : Ctx) (f : Pool) (s : State) : Out := engine x (.pool x f) 0x12 0x00 f.wf s (poolRun x f)

/-! ### Depthwise convolution (R193) -/

/-- The input formats and weight formats that DWCONV pairs (R193, R259). -/
def dwPair (d : Desc) (wfmt : Nat) : Bool :=
  if d.fmtEng = 7 then decide (d.fmtMem ≤ 4 ∧ d.fmtMem ≠ 2) && decide (wfmt ≤ 1)
  else d.fmtEng == 0xC && decide (8 ≤ d.fmtMem ∧ d.fmtMem ≤ 0xB) && wfmt == 2

/-- Weight element i of an array at h: INT8, INT4 packed under R104, or FP32 bits; with the tag it is read under. -/
def State.dwWeight (s : State) (wfmt h i : Nat) : Int × Nat × Tag :=
  if wfmt = 1 then (intOf ⟨true, 4⟩ (s.byte (h + i / 2) / 16 ^ (i % 2) % 16), 0, s.tagAt (h + i / 2))
  else if wfmt = 0 then (intOf ⟨true, 8⟩ (s.byte (h + i)), 0, s.tagAt (h + i))
  else (0, s.le (h + 4 * i) 4, s.tagAt (h + 4 * i))

/-- The sum of one channel of one window: taps in increasing ky, then kx. -/
def dwSum (intIn ftz : Bool) (ts : List (Tap × Int × Nat × Tag)) : Nat × Bool :=
  if intIn then (intBits 32 (ts.foldl (fun a t => a + sInt t.1.e.bits * t.2.1) 0), false)
  else match ts with
    | [] => (0, false)
    | t :: r =>
      r.foldl (fun (m : Nat × Bool) u =>
        let q := fmul ftz u.1.e.bits u.2.2.1
        let y := fadd ftz m.1 q.1
        (y.1, m.2 || q.2 || y.2)) (fmul ftz t.1.e.bits t.2.2.1)

/-- The run of DWCONV. -/
def dwconvRun (x : Ctx) (f : Dwconv) (expired : Bool) (s : State) : Eng :=
  let p := x.core
  let w := f.wfmt.toNat
  let ok := fun (d : Desc) => poolStream d false && dwPair d w
  s.withWindows x f.islot.toNat expired ok fun d ts s =>
    let c := d.channels
    let k := d.kernel
    let n := d.outs
    let wlen := if w = 1 then (k * c + 1) / 2 else if w = 0 then k * c else 4 * k * c
    s.withArray x f.wA (if w = 2 then 4 else 1) wlen fun wh =>
      s.withArray x f.dA 4 (4 * n * c) fun h =>
        let rt := s.regionTag x
        let ws := (List.range (k * c)).map (s.dwWeight w wh)
        let out : List ((Nat × Bool) × Tag) := (windowsOf c k n ts).flatMap (fun win => (win.zip (List.range c)).map (fun (tp, ch) =>
          let pr := (tp.zip (List.range k)).map (fun (t, i) => (t, ws.getD (i * c + ch) (0, 0, Tag.clean)))
          (dwSum (decide (d.fmtEng = 7)) (s.ftz x) pr, ((tapTags tp).join (joinTags (pr.map (fun e => e.2.2.2)))).join rt)))
        let s1 := s.putTagged h (out.flatMap (fun o => taggedBytes 4 o.1.1 o.2))
        let fp := decide (d.fmtEng = 0xC)
        .done (s1.numFlags p (vFx fp (out.map (fun o => ⟨o.1.1, false, o.1.2⟩))))

/-- DWCONV: one filter per channel over the windows of a stream (R259). -/
def execDwconv (x : Ctx) (f : Dwconv) (s : State) : Out := engine x (.dwconv x f) 0x12 0x01 f.wf s (dwconvRun x f)

end Sys2Proof.Machine
end

