-- ==== Sys2Proof/Machine/Detect.lean ====
section
/-! DEFINITION. Box decoding, non-maximum suppression, crops and record emission (07_vision_operators.md R203 to R217;
09 R260 to R263). -/

namespace Sys2Proof.Machine

/-! ### Binary32 values with the flush they caused (R115) -/

/-- A binary32 value and whether something was flushed on the way to it. -/
structure FV where
  b : Nat
  st : Bool
  deriving DecidableEq, Repr

/-- An operand of the vector engine. -/
def FV.of (z : Bool) (b : Nat) : FV := let r := flush32 z b; ⟨r.1, r.2⟩
/-- An exact integer. -/
def FV.int (n : Int) : FV := ⟨intToF32 n, false⟩
/-- An operation on two values. -/
def FV.op (f : Nat → Nat → Nat × Bool) (x y : FV) : FV := let r := f x.b y.b; ⟨r.1, x.st || y.st || r.2⟩
def FV.add (z : Bool) : FV → FV → FV := FV.op (fadd z)
def FV.sub (z : Bool) : FV → FV → FV := FV.op (fsub z)
def FV.mul (z : Bool) : FV → FV → FV := FV.op (fmul z)
def FV.max (z : Bool) : FV → FV → FV := FV.op (fminmax z true)
def FV.min (z : Bool) : FV → FV → FV := FV.op (fminmax z false)
/-- A function of one value, its result flushed. -/
def FV.map (z : Bool) (f : Nat → Nat) (x : FV) : FV := let r := flush32 z (f x.b); ⟨r.1, x.st || r.2⟩
def FV.nan (x : FV) : Bool := isNan32 x.b

/-- 0.5 in binary32. -/
def fHalf : FV := ⟨0x3F000000, false⟩

/-! ### BOXDEC parameter block (R203, R204) -/

/-- A pyramid level of the block. -/
structure BoxLevel where
  src : Nat
  gridW : Nat
  rows : Nat
  gy0 : Nat
  stride : Nat
  scan : Nat
  anchors : List Nat
  deriving DecidableEq, Repr

/-- The BOXDEC parameter block. -/
structure BoxBlock where
  fmt : Nat
  smode : Nat
  nclass : Nat
  nanchor : Nat
  nlevel : Nat
  fmtIn : Nat
  cap : Nat
  thresh : Nat
  map : List Nat
  frameW : Nat
  frameH : Nat
  list : Nat
  hist : Nat
  positions : Nat
  rsvd : Nat
  levels : List BoxLevel
  deriving DecidableEq, Repr

/-- The block of 176 bytes at h. -/
def State.boxBlock (s : State) (h : Nat) : BoxBlock :=
  let b := s.bytes h 176
  let n := sub b 4 1
  { fmt := sub b 0 1, smode := sub b 1 1, nclass := sub b 2 1, nanchor := sub b 3 1, nlevel := n, fmtIn := sub b 5 1,
    cap := sub b 6 2, thresh := sub b 8 4, map := (List.range 4).map (fun i => sub b (12 + 4 * i) 4),
    frameW := sub b 28 2, frameH := sub b 30 2, list := sub b 32 4, hist := sub b 36 4, positions := sub b 40 4,
    rsvd := sub b 44 4,
    levels := (List.range (min n 4)).map (fun l =>
      let o := 48 + 32 * l
      ⟨sub b o 4, sub b (o + 4) 2, sub b (o + 6) 2, sub b (o + 8) 2, sub b (o + 10) 2, sub b (o + 12) 4,
        (List.range 8).map (fun i => sub b (o + 16 + 2 * i) 2)⟩) }

/-- Values of one prediction. -/
def BoxBlock.per (k : BoxBlock) : Nat := 4 + (if k.smode = 1 then 1 else 0) + k.nclass
/-- Bytes of one value. -/
def BoxBlock.size (k : BoxBlock) : Nat := if k.fmtIn = 0xC then 4 else 2
/-- Positions of a level. -/
def BoxLevel.count (l : BoxLevel) : Nat := l.gridW * l.rows
/-- Bytes of a level's head tensor. -/
def BoxBlock.headBytes (k : BoxBlock) (l : BoxLevel) : Nat := l.count * k.nanchor * k.per * k.size

/-- Every field lies in its stated range, the levels hold P positions, and what the block names lies in the scratchpad. -/
def BoxBlock.valid (k : BoxBlock) : Bool :=
  decide (k.fmt ≤ 2) && decide (k.smode ≤ 2) && decide (1 ≤ k.nclass ∧ k.nclass ≤ 64) &&
  (if k.fmt = 0 then decide (1 ≤ k.nanchor ∧ k.nanchor ≤ 4) else k.nanchor == 1) &&
  decide (1 ≤ k.nlevel ∧ k.nlevel ≤ 4) && decide (0xA ≤ k.fmtIn ∧ k.fmtIn ≤ 0xC) && decide (1 ≤ k.cap ∧ k.cap ≤ 1024) &&
  decide (1 ≤ k.frameW) && decide (1 ≤ k.frameH) && k.list % 32 == 0 && decide (k.list + 32 * k.cap ≤ 0x200000) &&
  k.hist % 16 == 0 && decide (k.hist + 1040 ≤ 0x200000) && k.rsvd == 0 &&
  k.levels.foldl (fun n l => n + l.count) 0 == k.positions &&
  k.levels.all (fun l => decide (1 ≤ l.stride ∧ l.stride ≤ 256) && l.src % k.size == 0 &&
    decide (l.src + k.headBytes l ≤ 0x200000))

/-- Where a position lies: its level's number, the level, and its index in the level. -/
def findLevel (n : Nat) (i : Nat) : List BoxLevel → Option (Nat × BoxLevel × Nat)
  | [] => none
  | l :: r => if i < l.count then some (n, l, i) else findLevel (n + 1) (i - l.count) r

/-! ### Decoding of a prediction (R205, R206) -/

/-- A decoded prediction: clamped box, area, whether it was clamped. -/
structure Box where
  x0 : Nat
  y0 : Nat
  x1 : Nat
  y1 : Nat
  area : Nat
  clamped : Bool
  score : Nat
  cls : Nat
  level : Nat
  scan : Nat
  deriving DecidableEq, Repr

/-- What a prediction comes to: a candidate or none, NaN seen, a box clamped, something flushed. -/
structure Pred where
  cand : Option Box
  nan : Bool
  clamped : Bool
  flushed : Bool
  deriving DecidableEq, Repr

/-- Corner coordinates of a prediction in network pixels. -/
def rawBox (z : Bool) (fmt : Nat) (v : Nat → FV) (aw ah gx gy st : FV) : FV × FV × FV × FV :=
  let add := FV.add z
  let sub' := FV.sub z
  let mul := FV.mul z
  if fmt = 2 then
    let ux := add gx fHalf
    let uy := add gy fHalf
    (mul (sub' ux (v 0)) st, mul (sub' uy (v 1)) st, mul (add ux (v 2)) st, mul (add uy (v 3)) st)
  else
    let sig := FV.map z sigF
    let ex := FV.map z expF
    let cx := if fmt = 0 then mul (add (sig (v 0)) gx) st else mul (add (add (v 0) gx) fHalf) st
    let cy := if fmt = 0 then mul (add (sig (v 1)) gy) st else mul (add (add (v 1) gy) fHalf) st
    let hw := if fmt = 0 then mul (mul aw (ex (v 2))) fHalf else mul (mul (ex (v 2)) st) fHalf
    let hh := if fmt = 0 then mul (mul ah (ex (v 3))) fHalf else mul (mul (ex (v 3)) st) fHalf
    (sub' cx hw, sub' cy hh, add cx hw, add cy hh)

/-- The lowest class with the largest score (R206). -/
def bestClass (k : Nat) (best : Nat × FV) : List FV → Nat × FV
  | [] => best
  | x :: r => bestClass (k + 1) (if fgt x.b best.2.b then (k, x) else best) r

/-- One prediction: values v, its level and position. -/
def decodePred (z : Bool) (k : BoxBlock) (v : List FV) (li : Nat) (l : BoxLevel) (idx a : Nat) : Pred :=
  let at_ := fun i => v.getD i ⟨nan32, false⟩
  let anc := fun i => let r := widenF fp16 z (l.anchors.getD i 0); (⟨r.1, r.2.1⟩ : FV)
  let gx := idx % l.gridW
  let row := idx / l.gridW
  let b := rawBox z k.fmt at_ (anc (2 * a)) (anc (2 * a + 1)) (FV.int gx) (FV.int ((l.gy0 + row : Nat) : Int)) (FV.int l.stride)
  let m := fun i => FV.of z (k.map.getD i 0)
  let x0 := FV.add z (FV.mul z b.1 (m 0)) (m 2)
  let y0 := FV.add z (FV.mul z b.2.1 (m 1)) (m 3)
  let x1 := FV.add z (FV.mul z b.2.2.1 (m 0)) (m 2)
  let y1 := FV.add z (FV.mul z b.2.2.2 (m 1)) (m 3)
  let bad := x0.nan || y0.nan || x1.nan || y1.nan
  let clamp := fun (x : FV) (hi : Nat) => FV.min z (FV.max z x ⟨0, false⟩) (FV.int hi)
  let c0 := clamp x0 k.frameW
  let c1 := clamp y0 k.frameH
  let c2 := FV.max z (clamp x1 k.frameW) c0
  let c3 := FV.max z (clamp y1 k.frameH) c1
  let cl := !bad && !(fval c0.b == fval x0.b && fval c1.b == fval y0.b && fval c2.b == fval x1.b && fval c3.b == fval y1.b)
  let area := FV.mul z (FV.sub z c2 c0) (FV.sub z c3 c1)
  let o := if k.smode = 1 then 1 else 0
  let sig := FV.map z sigF
  let cls := (List.range k.nclass).map (fun j =>
    let x := at_ (4 + o + j)
    if k.smode = 2 then x else if k.smode = 1 then FV.mul z (sig (at_ 4)) (sig x) else sig x)
  let best := match cls with
    | [] => (0, (⟨nan32, false⟩ : FV))
    | x :: r => bestClass 1 (0, x) r
  let nanV := v.any FV.nan
  let th := FV.of z k.thresh
  let cand := !bad && !nanV && fge best.2.b th.b
  { cand := if cand then some ⟨c0.b, c1.b, c2.b, c3.b, area.b, cl, best.2.b, best.1, li,
      (l.scan + idx * k.nanchor + a) % 2 ^ 32⟩ else none,
    nan := bad || nanV, clamped := cl,
    flushed := area.st || c0.st || c1.st || c2.st || c3.st || th.st || cls.any FV.st }

/-- bin of R207: floor(score × 256) held to 0 … 255. -/
def scoreBin (b : Nat) : Nat :=
  match decodeF fp32 b with
  | .nan => 0
  | .inf s => if s then 0 else 255
  | .fin s m e =>
    if s then 0
    else if 0 ≤ e + 8 then min (m * 2 ^ (e + 8).toNat) 255
    else min (m / 2 ^ (-(e + 8)).toNat) 255

/-- The stored values of prediction a at index idx of a level, widened, and the tag they are read under. -/
def State.predValues (s : State) (p : Nat) (z : Bool) (k : BoxBlock) (l : BoxLevel) (idx a : Nat) : List FV × Tag :=
  let h := coreBase p + l.src + (idx * k.nanchor + a) * k.per * k.size
  ((List.range k.per).map (fun i =>
    let raw := s.le (h + i * k.size) k.size
    match fltOf k.fmtIn with
    | some f => if k.fmtIn = 0xC then FV.of z raw else let r := widenF f z raw; ⟨r.1, r.2.1⟩
    | none => ⟨raw, false⟩), s.tagRange h (k.per * k.size))

/-- The predictions of a range of positions, in position order, and the join of the tags of their values. -/
def State.predictions (s : State) (p : Nat) (z : Bool) (k : BoxBlock) (first count : Nat) : List Pred × Tag :=
  let r := (List.range count).flatMap (fun i =>
    match findLevel 0 (first + i) k.levels with
    | none => []
    | some (li, l, idx) => (List.range k.nanchor).map (fun a =>
        let v := s.predValues p z k l idx a
        (decodePred z k v.1 li l idx a, v.2)))
  (r.map Prod.fst, joinTags (r.map Prod.snd))

/-- The sticky flags of predictions. -/
def State.predFlags (s : State) (p : Nat) (ps : List Pred) : State :=
  (((s.stickyIf (ps.any Pred.nan) (Reg.CORE_OPSTAT p) 1).stickyIf (ps.any Pred.clamped) (Reg.CORE_OPSTAT p) 5).stickyIf
    (ps.any Pred.flushed) (Reg.CORE_NUMSTAT p) 1)

/-! ### Histogram and emission (R207) -/

/-- The 32 bytes of a candidate entry. -/
def Box.entry (b : Box) : List Nat :=
  leBytes 4 b.x0 ++ leBytes 4 b.y0 ++ leBytes 4 b.x1 ++ leBytes 4 b.y1 ++ leBytes 4 b.score ++ leBytes 2 b.cls ++
  [1 + (if b.clamped then 2 else 0), b.level] ++ leBytes 4 b.scan ++ leBytes 4 b.area

/-- ge(b) of R207. -/
def State.histGe (s : State) (h b : Nat) : Nat :=
  ((List.range 256).filter (fun i => decide (b ≤ i))).foldl (fun n i => n + s.le (h + 4 * i) 4) 0

/-- cut of R207: the smallest b with ge(b) ≤ cap. -/
def State.histCut (s : State) (h cap : Nat) : Nat :=
  ((List.range 257).find? (fun b => decide (s.histGe h b ≤ cap))).getD 256

/-- Ranges cover every position below n exactly once (R203). -/
def partitions (n : Nat) (l : List (Nat × Nat)) : Bool :=
  l.foldl (fun a r => a + r.2) 0 == n && l.all (fun r => decide (r.1 + r.2 ≤ n)) &&
  (List.range l.length).all (fun i => (List.range i).all (fun j =>
    let a := l.getD i (0, 0)
    let b := l.getD j (0, 0)
    decide (a.1 + a.2 ≤ b.1 ∨ b.1 + b.2 ≤ a.1)))

/-- A range of a scratchpad keeps its bytes and takes a tag beside its own. -/
def State.joinRange (s : State) (h n : Nat) (t : Tag) : State :=
  (touchedKeys h n).foldl (fun u (p, k, _) => u.setBlockTag p k (t.join (u.blockTag p k))) s

/-- An invalid parameter block was handled (R204, R208). -/
def State.paramFlag (s : State) (p : Nat) : State := s.sticky (Reg.CORE_OPSTAT p) 0

/-- The run of BOXDEC.H: counts the candidates of a range into the histogram. -/
def boxhRun (x : Ctx) (pA : BitVec 4) (clear : Bool) (first : BitVec 20) (count : BitVec 16) (_ : Bool) (s : State) : Eng :=
  let p := x.core
  let n := count.toNat + 1
  s.withArray x pA 16 176 fun h =>
    if s.gated x then .done s
    else
      let k := s.boxBlock h
      let ok := k.valid && decide (first.toNat + n ≤ k.positions)
      let c := s.core p
      let cover := if clear then [(first.toNat, n)] else (first.toNat, n) :: c.boxCover
      let bad := if clear then !ok else c.boxBad || c.boxOpen || !ok
      let s1 := s.modCore p (fun c => { c with boxCover := cover, boxBad := bad, boxOpen := false })
      if ok = false then .done (s1.paramFlag p)
      else
        let hh := coreBase p + k.hist
        let old := s.tagRange hh 1024
        let s2 := if clear then s1.setBytes hh (List.replicate 1024 0) else s1
        let r := s.predictions p (s.ftz x) k first.toNat n
        let s3 := r.1.foldl (fun u q => match q.cand with
          | some b => let a := hh + 4 * scoreBin b.score; u.setLe a 4 (u.le a 4 + 1)
          | none => u) s2
        let t := ((r.2.join (s.tagRange h 176)).join (if clear && c.boxOpen then Tag.clean else old)).join (s.regionTag x)
        .done ((s3.tagWrite hh 1024 t).predFlags p r.1)

/-- BOXDEC.H: builds the score histogram over a range of positions (R207, R260). -/
def execBoxdecH (x : Ctx) (pA : BitVec 4) (clear : Bool) (first : BitVec 20) (count : BitVec 16) (s : State) : Out :=
  engine x (.boxdecH x pA clear first count) 0x13 0x00 true s (boxhRun x pA clear first count)

/-- The first BOXDEC.E of a run: total, cut, kept and dropped, the empty entries, the overflow count. -/
def State.boxFirst (s : State) (p : Nat) (k : BoxBlock) : State :=
  let hh := coreBase p + k.hist
  let total := s.histGe hh 0
  let cut := s.histCut hh k.cap
  let kept := if cut = 0 then total else k.cap
  let dropped := total - kept
  let s1 := ((((s.setLe (hh + 1024) 4 total).setLe (hh + 1028) 4 cut).setLe (hh + 1032) 4 kept).setLe (hh + 1036) 4 dropped)
  let s2 := s1.setBytes (coreBase p + k.list + 32 * kept) (List.replicate (32 * (k.cap - kept)) 0)
  (s2.satAdd (Reg.CORE_CANDOVF p) dropped).stickyIf (decide (0 < dropped)) (Reg.CORE_OPSTAT p) 2

/-- Writes the kept candidates of a range. -/
def State.boxEmit (s : State) (p : Nat) (k : BoxBlock) (ps : List Pred) : State :=
  let hh := coreBase p + k.hist
  let cut := s.histCut hh k.cap
  let ties := k.cap - s.histGe hh cut
  ps.foldl (fun u q => match q.cand with
    | none => u
    | some b =>
      let c := u.core p
      let bin := scoreBin b.score
      let tie := decide (0 < cut) && bin + 1 == cut
      if (cut ≤ bin ∨ (tie = true ∧ c.boxTie < ties)) ∧ c.boxPos < k.cap then
        (u.setBytes (coreBase p + k.list + 32 * c.boxPos) b.entry).modCore p (fun c =>
          { c with boxPos := c.boxPos + 1, boxTie := c.boxTie + (if tie then 1 else 0) })
      else u) s

/-- The run of BOXDEC.E: emits the candidates of a range; where the ranges of the run break R203, the list is free. -/
def boxeRun (x : Ctx) (pA : BitVec 4) (first : BitVec 20) (count : BitVec 16) (_ : Bool) (s : State) : Eng :=
  let p := x.core
  let n := count.toNat + 1
  s.withArray x pA 16 176 fun h =>
    if s.gated x then .done s
    else
      let k := s.boxBlock h
      let ok := k.valid && decide (first.toNat + n ≤ k.positions)
      let c := s.core p
      let isFirst := !c.boxOpen
      let rt := (s.tagRange h 176).join (s.regionTag x)
      let lh := coreBase p + k.list
      if ok = false then
        let s1 := (s.modCore p (fun c => { c with boxOpen := true, boxBad := true })).paramFlag p
        if isFirst ∧ k.list % 32 = 0 ∧ k.list + 32 * k.cap ≤ 0x200000 then
          .done (s1.putTagged lh ((List.replicate (32 * k.cap) 0).map (fun b => (b, rt))))
        else .done s1
      else
        let bad := c.boxBad || (isFirst && !partitions k.positions c.boxCover) ||
          first.toNat != (if isFirst then 0 else c.boxNext)
        let pos := if isFirst then 0 else c.boxPos
        let tie := if isFirst then 0 else c.boxTie
        let s1 := s.modCore p (fun c =>
          { c with boxOpen := true, boxBad := bad, boxNext := first.toNat + n, boxPos := pos, boxTie := tie })
        let s2 := if isFirst then s1.boxFirst p k else s1
        let r := s.predictions p (s.ftz x) k first.toNat n
        let t := (r.2.join rt).join (s.tagRange (coreBase p + k.hist) 1024)
        let s3 := if bad then
            let fb := s2.freeBytes (32 * k.cap)
            fb.2.setBytes lh fb.1
          else s2.boxEmit p k r.1
        let s4 := if isFirst then (s3.tagWrite lh (32 * k.cap) t).joinRange (coreBase p + k.hist + 1024) 16 t
          else s3.joinRange lh (32 * k.cap) t
        .done (s4.predFlags p r.1)

/-- BOXDEC.E: emits the candidates of a range of positions (R207, R260). -/
def execBoxdecE (x : Ctx) (pA : BitVec 4) (first : BitVec 20) (count : BitVec 16) (s : State) : Out :=
  engine x (.boxdecE x pA first count) 0x13 0x01 true s (boxeRun x pA first count)

/-! ### Non-maximum suppression (R208 to R211) -/

/-- The NMS parameter entry. -/
structure NmsEntry where
  thr : Nat
  nc : Nat
  sN : Nat
  mode : Nat
  inp : Nat
  out : Nat
  deriving DecidableEq, Repr

/-- The entry of 16 bytes at h. -/
def State.nmsEntry (s : State) (h : Nat) : NmsEntry :=
  ⟨s.le h 4, s.le (h + 4) 2, s.le (h + 6) 2, s.le (h + 8) 1, 32 * s.le (h + 12) 2, 32 * s.le (h + 14) 2⟩

/-- The parameters lie in their stated ranges, and the lists in the scratchpad. -/
def NmsEntry.valid (e : NmsEntry) : Bool :=
  (e.nc == 32 || e.nc == 64 || e.nc == 128 || e.nc == 256 || e.nc == 512 || e.nc == 1024) &&
  decide (1 ≤ e.sN ∧ e.sN ≤ e.nc) && decide (e.mode ≤ 1) && decide (e.inp + 32 * e.nc ≤ 0x200000) &&
  decide (e.out + 32 * e.sN ≤ 0x200000)

/-- The entries of a list: n entries of 32 bytes at h. -/
def State.entries (s : State) (h n : Nat) : List (List Nat) := (List.range n).map (fun i => s.bytes (h + 32 * i) 32)

/-- Validity of an entry. -/
def entryValid (e : List Nat) : Bool := nbit (sub e 22 1) 0

/-- e comes before f by the first three tests of R209. -/
def entryBefore (e f : List Nat) : Bool :=
  if entryValid e ≠ entryValid f then entryValid e
  else
    let a := sub e 16 4
    let b := sub f 16 4
    if fgt a b then true else if fgt b a then false else decide (sub e 24 4 < sub f 24 4)

/-- Inserts an entry behind those that it does not come before. -/
def insertEntry (e : List Nat) : List (List Nat) → List (List Nat)
  | [] => [e]
  | f :: r => if entryBefore e f then e :: f :: r else f :: insertEntry e r

/-- The order of R209: equal entries keep their order. -/
def sortEntries (l : List (List Nat)) : List (List Nat) := l.foldl (fun acc e => insertEntry e acc) []

/-- suppresses(a, b, thr) of R210, and whether something was flushed. -/
def suppresses (z : Bool) (a b : List Nat) (thr : Nat) : Bool × Bool :=
  let f := fun (e : List Nat) o => FV.of z (sub e o 4)
  let iw := FV.sub z (FV.min z (f a 8) (f b 8)) (FV.max z (f a 0) (f b 0))
  let ih := FV.sub z (FV.min z (f a 12) (f b 12)) (FV.max z (f a 4) (f b 4))
  let le0 := fun (v : FV) => !v.nan && decide (fval v.b ≤ 0)
  if le0 iw || le0 ih then (false, iw.st || ih.st)
  else
    let inter := FV.mul z iw ih
    let uni := FV.sub z (FV.add z (f a 28) (f b 28)) inter
    let lim := FV.mul z (FV.of z thr) uni
    (fgt inter.b lim.b, inter.st || lim.st)

/-- One row of the suppression: the keep marks after row i, and whether something was flushed. -/
def supRow (z : Bool) (e : NmsEntry) (es : List (List Nat)) (keep : List Bool) (i : Nat) : List Bool × Bool :=
  let a := es.getD i []
  if keep.getD i false = false then (keep, false)
  else
    let r := (es.zip (keep.zip (List.range es.length))).map (fun (b, k, j) =>
      if i < j ∧ k = true ∧ (e.mode = 1 ∨ sub a 20 2 = sub b 20 2) then
        let q := suppresses z a b e.thr
        (!q.1, q.2)
      else (k, false))
    (r.map Prod.fst, r.any Prod.snd)

/-- The keep marks of the list at an offset: as the sort and the rows before left them, or the valid bits. -/
def State.keepOf (s : State) (p : Nat) (e : NmsEntry) : List Bool :=
  let k := Tbl.get (fun _ => []) (s.core p).keep e.inp
  if k.length = e.nc then k else (s.entries (coreBase p + e.inp) e.nc).map entryValid

/-- Sets the keep marks. -/
def State.setKeep (s : State) (p off : Nat) (k : List Bool) : State :=
  s.modCore p (fun c => { c with keep := Tbl.set (fun _ => []) c.keep off k })

/-- An NMS command with its entry: an invalid entry sets param and does what bad says. -/
def State.withNms (s : State) (x : Ctx) (pA : BitVec 4) (bad good : Nat → NmsEntry → State → State) : Eng :=
  s.withArray x pA 16 16 fun h =>
    if s.gated x then .done s
    else
      let e := s.nmsEntry h
      if e.valid then .done (good h e s) else .done (bad h e (s.paramFlag x.core))

/-- NMS.SORT: puts the candidate list in priority order (R209). -/
def execNmsSort (x : Ctx) (pA : BitVec 4) (s : State) : Out :=
  engine x (.nmsSort x pA) 0x13 0x02 true s fun _ s =>
    s.withNms x pA (fun _ _ s => s) fun h e s =>
      let lh := coreBase x.core + e.inp
      let es := sortEntries (s.entries lh e.nc)
      let t := ((s.tagRange lh (32 * e.nc)).join (s.tagRange h 16)).join (s.regionTag x)
      ((s.setBytes lh es.flatten).tagWrite lh (32 * e.nc) t).setKeep x.core e.inp (es.map entryValid)

/-- NMS.SUP: runs rows i0 to i1 of the suppression (R210); an empty or excessive range is invalid. -/
def execNmsSup (x : Ctx) (pA : BitVec 4) (i0 : BitVec 10) (i1 : BitVec 10) (s : State) : Out :=
  engine x (.nmsSup x pA i0 i1) 0x13 0x03 true s fun _ s =>
    s.withNms x pA (fun _ _ s => s) fun _ e s =>
      let a := i0.toNat
      let b := i1.toNat
      if b < a ∨ e.nc - 2 < b then s.paramFlag x.core
      else
        let es := s.entries (coreBase x.core + e.inp) e.nc
        let r := (List.range (b - a + 1)).foldl (fun (k : List Bool × Bool) i =>
          let q := supRow (s.ftz x) e es k.1 (a + i)
          (q.1, k.2 || q.2)) (s.keepOf x.core e, false)
        (s.setKeep x.core e.inp r.1).stickyIf r.2 (Reg.CORE_NUMSTAT x.core) 1

/-- NMS.OUT: writes the first S kept entries and empties after them (R211). -/
def execNmsOut (x : Ctx) (pA : BitVec 4) (s : State) : Out :=
  engine x (.nmsOut x pA) 0x13 0x04 true s fun _ s =>
    let done := fun (s : State) => s.satAdd (Reg.CORE_NMSRUNS x.core) 1
    s.withNms x pA
      (fun h e s => done (if e.out + 32 * e.sN ≤ 0x200000 then
          s.putTagged (coreBase x.core + e.out) ((List.replicate (32 * e.sN) 0).map (fun b => (b, (s.tagRange h 16).join (s.regionTag x))))
        else s))
      fun h e s =>
        let lh := coreBase x.core + e.inp
        let kept := (((s.entries lh e.nc).zip (s.keepOf x.core e)).filter Prod.snd).map Prod.fst
        let out := kept.take e.sN ++ List.replicate (e.sN - kept.length) (List.replicate 32 0)
        let t := ((s.tagRange lh (32 * e.nc)).join (s.tagRange h 16)).join (s.regionTag x)
        let s1 := s.putTagged (coreBase x.core + e.out) (out.flatten.map (fun b => (b, t)))
        let ovf := kept.length - e.sN
        done ((s1.satAdd (Reg.CORE_SURVOVF x.core) ovf).stickyIf (decide (0 < ovf)) (Reg.CORE_OPSTAT x.core) 3)

/-! ### Crops (R214, R215, R261) -/

/-- The CROP block. -/
structure CropBlock where
  classes : Nat
  wmin : Nat
  hmin : Nat
  ccap : Nat
  wc : Nat
  hc : Nat
  pw : Nat
  ph : Nat
  surv : Nat
  sN : Nat
  src : Nat
  dst : Nat
  list : Nat
  rsvd : Nat
  deriving DecidableEq, Repr

/-- The block of 64 bytes at h; rsvd joins its reserved bytes. -/
def State.cropBlock (s : State) (h : Nat) : CropBlock :=
  let b := s.bytes h 64
  ⟨sub b 0 8, sub b 8 2, sub b 10 2, sub b 12 1, sub b 16 2, sub b 18 2, sub b 20 2, sub b 22 2, sub b 24 4, sub b 28 2,
    sub b 32 8, sub b 40 8, sub b 48 4, sub b 13 3 + sub b 30 2 + sub b 52 12⟩

/-- Bytes of one crop in NV12. -/
def CropBlock.size (k : CropBlock) : Nat := k.wc * k.hc * 3 / 2

/-- The block's fields lie in their stated ranges; the source holds at least one chroma sample. -/
def CropBlock.valid (k : CropBlock) : Bool :=
  decide (1 ≤ k.ccap ∧ k.ccap ≤ 64) && k.wc % 2 == 0 && k.hc % 2 == 0 && decide (16 ≤ k.wc ∧ k.wc ≤ 512) &&
  decide (16 ≤ k.hc ∧ k.hc ≤ 512) && decide (2 ≤ k.pw) && decide (2 ≤ k.ph) && decide (k.surv + 32 * k.sN ≤ 0x200000) &&
  k.list % 2 == 0 && decide (k.list + 2 * k.ccap ≤ 0x200000) && k.rsvd == 0

/-- The rounded box of an entry (R212). -/
def entryBox (e : List Nat) : List Nat := (List.range 4).map (fun i => intBits 16 (fround (sub e (4 * i) 4)))

/-- An entry that CROP selects. -/
def CropBlock.selects (k : CropBlock) (e : List Nat) : Bool :=
  let b := entryBox e
  let w := (b.getD 2 0 : Int) - b.getD 0 0
  let h := (b.getD 3 0 : Int) - b.getD 1 0
  entryValid e && decide (sub e 20 2 < 64) && nbit k.classes (sub e 20 2) && decide ((k.wmin : Int) ≤ w) &&
  decide ((k.hmin : Int) ≤ h)

/-- Position of luma sample i in 16.16 (R215). -/
def lumaPos (i x0 x1 w : Nat) : Int :=
  let step := ((x1 : Int) - x0) * 65536 / w
  (x0 : Int) * 65536 + step * i + step / 2 - 0x8000

/-- Position of chroma sample i on the source's chroma grid (R215). -/
def chromaPos (i x0 x1 w : Nat) : Int :=
  let step := ((x1 : Int) - x0) * 65536 / w
  ((x0 : Int) * 65536 + step * (2 * i + 1) - 0x8000 - 0x8000) / 2

/-- The four positions that a sample reads and its two fractions: row and column offsets of a plane. -/
structure Taps4 where
  x : Nat
  x1 : Nat
  y : Nat
  y1 : Nat
  fx : Nat
  fy : Nat
  deriving DecidableEq, Repr

/-- The taps of sample(plane, pw, ph, px, py). -/
def taps4 (pw ph : Nat) (px py : Int) : Taps4 :=
  let x := (clampInt px 0 (((pw : Int) - 1) * 65536)).toNat
  let y := (clampInt py 0 (((ph : Int) - 1) * 65536)).toNat
  ⟨x / 65536, min (x / 65536 + 1) (pw - 1), y / 65536, min (y / 65536 + 1) (ph - 1), x / 256 % 256, y / 256 % 256⟩

/-- The interpolated sample: at gives a plane's sample. -/
def Taps4.blend (t : Taps4) (at_ : Nat → Nat → Nat) : Nat :=
  let top := at_ t.x t.y * (256 - t.fx) + at_ t.x1 t.y * t.fx
  let bot := at_ t.x t.y1 * (256 - t.fx) + at_ t.x1 t.y1 * t.fx
  (rheDiv ((top * (256 - t.fy) + bot * t.fy : Nat) : Int) 65536).toNat

/-- The bytes of one crop: luma rows, then interleaved chroma rows; at reads the source at an offset. -/
def CropBlock.bytes (k : CropBlock) (box : List Nat) (at_ : Nat → Nat) : List Nat :=
  let x0 := box.getD 0 0
  let y0 := box.getD 1 0
  let x1 := box.getD 2 0
  let y1 := box.getD 3 0
  let hw := k.pw / 2
  let hh := k.ph / 2
  (List.range k.hc).flatMap (fun j => (List.range k.wc).map (fun i =>
    (taps4 k.pw k.ph (lumaPos i x0 x1 k.wc) (lumaPos j y0 y1 k.hc)).blend (fun x y => at_ (y * k.pw + x)))) ++
  (List.range (k.hc / 2)).flatMap (fun j => (List.range (k.wc / 2)).flatMap (fun i =>
    let t := taps4 hw hh (chromaPos i x0 x1 k.wc) (chromaPos j y0 y1 k.hc)
    [t.blend (fun x y => at_ (k.pw * k.ph + 2 * (y * hw + x))), t.blend (fun x y => at_ (k.pw * k.ph + 2 * (y * hw + x) + 1))]))

/-- Bytes of the source frame. -/
def CropBlock.frameBytes (k : CropBlock) : Nat := k.pw * k.ph + 2 * ((k.pw / 2) * (k.ph / 2))

/-- Writes the crops of a range of slots; the first address outside every mapped range stops it. -/
def State.cropSlots (s : State) (p : Nat) (k : CropBlock) (sel : List (List Nat)) (t : Tag) : List Nat → State ⊕ (State × Nat)
  | [] => .inl s
  | i :: r =>
    match sel[i]? with
    | none => (s.putTagged (coreBase p + k.list + 2 * i) (taggedBytes 2 0xFFFF t)).cropSlots p k sel t r
    | some e =>
      let d := k.dst + i * k.size
      match s.spaceAddr p 0 false k.src k.frameBytes, s.spaceAddr p 0 true d k.size with
      | none, _ => .inr (s, k.src)
      | _, none => .inr (s, d)
      | some (sh, _), some (dh, _) =>
        let bs := k.bytes (entryBox e) (fun o => s.byte (sh + o))
        let st := t.join (s.tagRange sh k.frameBytes)
        let s1 := s.seWrite p dh bs
        let s2 := s1.healLines ((List.range bs.length).map (fun i => dh + i))
        let s3 := (blockSpans dh bs.length).foldl (fun u (lo, n) => u.tagWrite lo n st) s2
        (s3.putTagged (coreBase p + k.list + 2 * i) (taggedBytes 2 i t)).cropSlots p k sel t r

/-- The run of CROP. -/
def cropRun (x : Ctx) (pA : BitVec 4) (first : BitVec 6) (count : BitVec 6) (_ : Bool) (s : State) : Eng :=
  let p := x.core
  let n := count.toNat + 1
  s.withArray x pA 16 64 fun h =>
    if s.gated x then .done s
    else
      let k := s.cropBlock h
      if k.valid = false ∨ k.ccap < first.toNat + n then .done (s.paramFlag p)
      else
        let lh := coreBase p + k.surv
        let sel := (s.entries lh k.sN).filter k.selects
        let ovf := if first.toNat = 0 then sel.length - k.ccap else 0
        let t := ((s.tagRange lh (32 * k.sN)).join (s.tagRange h 64)).join (s.regionTag x)
        let s1 := (s.satAdd (Reg.CORE_CROPOVF p) ovf).stickyIf (decide (0 < ovf)) (Reg.CORE_OPSTAT p) 4
        match s1.cropSlots p k (sel.take k.ccap) t ((List.range n).map (fun i => first.toNat + i)) with
        | .inl s2 => .done s2
        | .inr (s2, a) => .halt s2 haltSeAddr seAddrInfo a

/-- CROP: resamples selected survivors into NV12 crops (R214, R215, R260). -/
def execCrop (x : Ctx) (pA : BitVec 4) (first : BitVec 6) (count : BitVec 6) (s : State) : Out :=
  engine x (.crop x pA first count) 0x13 0x05 true s (cropRun x pA first count)

/-! ### Record emission (R212, R213, R262, R263) -/

/-- Queue q of core p. -/
def State.queue (s : State) (p q : Nat) : List QEntry := Tbl.get (fun _ => []) (s.core p).queues q

/-- Sets queue q of core p. -/
def State.setQueue (s : State) (p q : Nat) (l : List QEntry) : State :=
  s.modCore p (fun c => { c with queues := Tbl.set (fun _ => []) c.queues q l })

/-- A queue entry for bytes of a record. -/
def State.qEntry (s : State) (p : Nat) (bytes : List Nat) (det : Bool) (t : Tag) : QEntry :=
  let l := (s.roleOf p).getD 0xFF
  ⟨bytes, det, t, false, l, (s.roleOf p).elim 0 s.roleEpoch, p % 9 == 8⟩

/-- A record queue takes entries up to its 1,024; what does not fit is discarded with CORE_OPSTAT.param. -/
def State.enqueue (s : State) (p q : Nat) (es : List QEntry) : State :=
  let l := s.queue p q ++ es
  (s.setQueue p q (l.take 1024)).stickyIf (decide (1024 < l.length)) (Reg.CORE_OPSTAT p) 0

/-- DETECTION record bytes 24 to 47, type and valid mark of a survivor (Table, DETECTION fields from a survivor). -/
def detBytes (z : Bool) (network output : Nat) (e : List Nat) : List Nat :=
  if entryValid e then
    (entryBox e).flatMap (leBytes 2) ++ leBytes 2 (sub e 20 2) ++ leBytes 2 (narrowFloat fp16 true z (sub e 16 4)).bits ++
    leBytes 2 network ++ leBytes 2 output ++ List.replicate 8 0 ++ leBytes 2 1 ++ [1] ++ List.replicate 5 0
  else List.replicate 32 0

/-- The run of EMIT.DET. -/
def emitDetRun (x : Ctx) (f : EmitDet) (_ : Bool) (s : State) : Eng :=
  let p := x.core
  s.withArray x f.pA 16 16 fun h =>
    let e := s.nmsEntry h
    let fits := decide (e.out + 32 * e.sN ≤ 0x200000)
    let es := if fits then s.entries (coreBase p + e.out) e.sN else List.replicate e.sN (List.replicate 32 0)
    let t := if fits then (s.tagRange (coreBase p + e.out) (32 * e.sN)).join (s.tagRange h 16) else s.tagRange h 16
    let s1 := s.enqueue p f.q.toNat (es.map (fun b => s.qEntry p (detBytes (s.ftz x) f.network.toNat f.output.toNat b) true t))
    .done (if fits then s1 else s1.paramFlag p)

/-- EMIT.DET: places the survivors of a frame in a record queue (R262). -/
def execEmitDet (x : Ctx) (f : EmitDet) (s : State) : Out :=
  engine x (.emitDet x f) 0x14 0x00 (!isLoose x) s (emitDetRun x f)

/-- A record type that EMIT.REC may place: DETECTION, EMBEDDING, INTERACTION, OCCUPANCY or USER. -/
def emitType (t : Nat) : Bool := decide (1 ≤ t ∧ t ≤ 4) || decide (0x100 ≤ t ∧ t ≤ 0x1FF)

/-- The run of EMIT.REC. -/
def emitRecRun (x : Ctx) (lA : BitVec 4) (q : BitVec 3) (n : BitVec 10) (_ : Bool) (s : State) : Eng :=
  let p := x.core
  let c := n.toNat + 1
  s.withArray x lA 1 (32 * c) fun h =>
    let es := (List.range c).map (fun i => (s.bytes (h + 32 * i) 32, s.tagRange (h + 32 * i) 32))
    let valid := fun (b : List Nat) => nbit (sub b 26 1) 0
    let bad := es.any (fun e => valid e.1 && !emitType (sub e.1 24 2))
    let s1 := s.enqueue p q.toNat (es.map (fun e =>
      s.qEntry p (if valid e.1 && emitType (sub e.1 24 2) then e.1 else List.replicate 32 0) false e.2))
    .done (if bad then s1.paramFlag p else s1)

/-- EMIT.REC: places the entries of a list in a record queue (R262). -/
def execEmitRec (x : Ctx) (lA : BitVec 4) (q : BitVec 3) (n : BitVec 10) (s : State) : Out :=
  engine x (.emitRec x lA q n) 0x14 0x01 (!isLoose x) s (emitRecRun x lA q n)

end Sys2Proof.Machine
end

