-- ==== Sys2Proof/Machine/RegOps.lean ====
section
/-! DEFINITION. Writes to registers under the access codes of R13 and R14, and reads under R12, R13 and R16. -/

namespace Sys2Proof.Machine

/-- Bits of a word that a mask does not select. -/
def andNot (v m : Nat) : Nat := v - (v &&& m)

/-- The lock bit that governs the LOCK fields of a register: its register and bit (R13). -/
def lockOf (a : Nat) : Option (Nat × Nat) :=
  if 0x1200000000 ≤ a ∧ a < 0x1210000000 then
    let o := (a - 0x1200000000) % 0x100000
    match (a - 0x1200000000) / 0x100000 with
    | 0x00 => some (Reg.SYS_LOCK, 0)
    | 0x01 => some (Reg.RST_LOCK, 0)
    | 0x03 => some (Reg.PWR_LOCK, 0)
    | 0x08 => some (Reg.DMC_LOCK, 0)
    | 0x20 => some (Reg.VDEC_LOCK, 0)
    | 0x2C => some (Reg.ISP_LOCK, 0)
    | 0x38 => some (Reg.PCIE_LOCK, 0)
    | 0x40 => if o < 0x100 then some (Reg.WV_CTRL, 8) else some (Reg.WV_JOBCTRL, 1)
    | 0x5B => some (Reg.PMB_LOCK, 0)
    | _ => none
  else none

/-- The LOCK fields of the register at a are locked. -/
def State.locked (s : State) (a : Nat) : Bool :=
  match lockOf a with
  | some (r, i) => s.bit r i
  | none => false

/-- The register's ONCE fields take no further write: they have been written since the reset. -/
def State.onceLocked (s : State) (a : Nat) : Bool := Tbl.get (fun _ => false) s.onceDone a

/-- A write to a register under its access codes alone (R13, R14): RW and unlocked LOCK and ONCE bits take the value, W1C
bits clear and W1S bits set where the value is 1; a write that reaches a locked field is recorded. -/
def State.plainWrite (s : State) (a v master : Nat) : State :=
  match Reg.rowOf a with
  | none => s
  | some r =>
    let lk := s.locked a
    let on := s.onceLocked a
    let take := r.rw ||| (if lk then 0 else r.lock) ||| (if on then 0 else r.once)
    let old := s.regN a
    let n1 := andNot old take ||| (v &&& take)
    let n2 := andNot n1 (v &&& r.w1c) ||| (v &&& r.w1s)
    let s1 := s.setRegN a n2
    let s2 := if r.once = 0 ∨ on = true then s1 else { s1 with onceDone := Tbl.set (fun _ => false) s1.onceDone a true }
    if (lk && r.lock != 0) || (on && r.once != 0) then s2.lockViolation a master else s2

/-- The abort condition of the object dictionary: the register has a locked field (R14). -/
def State.hasLocked (s : State) (a : Nat) : Bool :=
  match Reg.rowOf a with
  | none => false
  | some r => (s.locked a && r.lock != 0) || (s.onceLocked a && r.once != 0)

/-- A read of a stored register: its value; RC bits clear (R13, R16). -/
def State.plainRead (s : State) (a : Nat) : Nat × State :=
  match Reg.rowOf a with
  | none => (0, s)
  | some r => (s.regN a, if r.rc = 0 then s else s.setRegN a (andNot (s.regN a) r.rc))

end Sys2Proof.Machine
end

