-- ==== Sys2Proof/Machine/CoreCtl.lean ====
section
/-! DEFINITION. The commands and events that control a core from outside: CORE_CTRL, the ends of parks and of SPARE
initialisation, pending mode changes, external register and program writes, the role table, invalidations, the cache and
window registers, and the expiry of a barrier (03 R93, R94; 04 R116; 05 R151; 06 R161, R166, R179, R189; 08 R218 to R235). -/

namespace Sys2Proof.Machine

/-- A physical core that the part has. -/
def State.hasCore (s : State) (p : Nat) : Bool := decide (p < 9 * s.clusters)

/-- A CORE_CTRL command was ignored (R233). -/
def State.ctrlRej (s : State) (p : Nat) : State := s.sticky (Reg.CORE_STATUS p) 10

/-! ### Parking (R230) -/

/-- A park is requested of core p: its sequencer places no further command. -/
def State.requestPark (s : State) (p : Nat) : State :=
  if s.coreState p = 1 ∨ s.coreState p = 2 then s.sticky (Reg.CORE_STATUS p) 3 else s

/-- Core p is PARKED: what it waited for is forgotten; the instruction at which it stands is issued again on RESUME. -/
def State.parkNow (s : State) (p : Nat) : State :=
  ((s.setCoreState p 0 0).putBit (Reg.CORE_STATUS p) 3 false).modCore p (fun c =>
    { c with held := none, syncAt := none, waitN := 0 })

/-- CORE_CTRL.cmd = PARK. -/
def State.cmdPark (s : State) (p : Nat) : State :=
  if (s.coreState p = 1 ∨ s.coreState p = 2) ∧ s.bit (Reg.CORE_STATUS p) 3 = false then s.requestPark p else s.ctrlRej p

/-- CORE_PARK. -/
def execCorePark (p : Fin 72) (s : State) : Out :=
  .next (if s.hasCore p.val then s.cmdPark p.val else s)

/-- PARK_COMPLETE: every command in flight has completed and the core enters PARKED. -/
def execParkComplete (p : Fin 72) (s : State) : Out :=
  .next (if s.bit (Reg.CORE_STATUS p.val) 3 then s.parkNow p.val else s)

/-- n bytes of free values at an address. -/
def State.putFree (s : State) (h n : Nat) : State :=
  let r := s.freeBytes n
  r.2.setBytes h r.1

/-- The pass in flight on engine e of core p is aborted: the entries of its tile are undefined and poisoned. -/
def State.discardTile (s : State) (p e : Nat) : State :=
  let t := s.fld (Reg.CORE_MESTAT p e) 8 4
  (s.putFree (accAddr p e t 0 0) 4096).setBlockTag p (4096 + 16 * e + t) (Tag.ofCause .missing)

/-- Discards the tile of every stalled matrix engine. -/
def State.discardTiles (s : State) (p stalled : Nat) : State :=
  ((List.range 4).filter (fun e => stalled.testBit e)).foldl (fun t e => t.discardTile p e) s

/-- info of PARK_ABORT: stalled engines, and the discarded tile with its engine. -/
def State.parkAbortInfo (s : State) (p stalled : Nat) : Nat :=
  match (List.range 4).find? (fun e => stalled.testBit e) with
  | some e => stalled % 64 + s.fld (Reg.CORE_MESTAT p e) 8 4 * 64 + e * 1024
  | none => stalled % 64

/-- PARK_TIMEOUT: 10 µs after the request engines are still stalled; their passes are aborted and the core halts with
PARK_ABORT. -/
def execParkTimeout (p : Fin 72) (stalled : BitVec 6) (s : State) : Out :=
  .next (if s.bit (Reg.CORE_STATUS p.val) 3 then
    (s.discardTiles p.val stalled.toNat).haltCore p.val haltParkAbort (s.parkAbortInfo p.val stalled.toNat) 0 false else s)

/-! ### RESUME, HALT, UNHALT, SPARE (R232, R233) -/

/-- CORE_CTRL.cmd = RESUME: a PARKED core without a role, or with one while the weave runs, continues where it parked; a core
without a role at index 0 begins a tick of its own at the next pick boundary. -/
def State.cmdResume (s : State) (p : Nat) : State :=
  let free := (s.roleOf p).isNone
  if s.coreState p = 0 ∧ (free = true ∨ s.weaveState = 4) ∧ s.bit (Reg.CORE_STATUS p) 7 = false then
    let s1 := if free ∧ (s.core p).woven.pc = 0 then
        s.modCore p (fun c => { c with ownTick := some (s.pickNow + 1), lastWait := 0 })
      else s
    s1.setCoreState p 1 0
  else s.ctrlRej p

/-- CORE_RESUME. -/
def execCoreResume (p : Fin 72) (s : State) : Out := .next (if s.hasCore p.val then s.cmdResume p.val else s)

/-- CORE_HALT: the core halts at once with EXT_HALT; the passes in flight are aborted as in a park. -/
def execCoreHalt (p : Fin 72) (master : BitVec 8) (stalled : BitVec 4) (s : State) : Out :=
  .next (if s.hasCore p.val then
    (if s.coreState p.val = 3 then s else s.discardTiles p.val stalled.toNat).haltCore p.val haltExt master.toNat 0 false else s)

/-- Clears the halt latch of core p. -/
def State.clearLatch (s : State) (p : Nat) : State := s.clearRegs (Reg.CORE_HALT_PC p) (Reg.CORE_HALT_ADDR_HI p + 4)

/-- CORE_CTRL.cmd = UNHALT: a HALTED core without a role, halted for a reason of class program or request, is PARKED. -/
def State.cmdUnhalt (s : State) (p : Nat) : State :=
  let cls := s.fld (Reg.CORE_HALT_REASON p) 8 2
  if s.coreState p = 3 ∧ s.roleOf p = none ∧ (cls = 1 ∨ cls = 3) ∧ s.bit (Reg.CORE_STATUS p) 7 = false then
    (s.clearLatch p).parkNow p
  else s.ctrlRej p

/-- CORE_UNHALT. -/
def execCoreUnhalt (p : Fin 72) (s : State) : Out := .next (if s.hasCore p.val then s.cmdUnhalt p.val else s)

/-- CORE_CTRL.cmd = SPARE: initialisation of a PARKED or HALTED core begins. -/
def State.cmdSpare (s : State) (p : Nat) : State :=
  let st := s.coreState p
  if (st = 0 ∨ (st = 3 ∧ s.fld (Reg.CORE_HALT_REASON p) 8 2 ≠ 2)) ∧ s.roleOf p = none ∧ s.spareSlot (p / 9) = none ∧
      s.bit (Reg.CORE_STATUS p) 7 = false then
    s.sticky (Reg.CORE_STATUS p) 7
  else s.ctrlRej p

/-- CORE_SPARE. -/
def execCoreSpare (p : Fin 72) (s : State) : Out := .next (if s.hasCore p.val then s.cmdSpare p.val else s)

/-- Scratchpad, accumulators and program memory of core p become zero. -/
def State.zeroCoreMem (s : State) (p : Nat) : State := s.clearMem (coreBase p) (coreBase p + 0x1000000)

/-- The registers of core p at their reset values. -/
def State.clearCoreRegs (s : State) (p : Nat) : State :=
  (s.clearRegs (Reg.coreReg p) (Reg.coreReg p + 0x100000)).setCore p Core.init

/-- SPARE_INIT_COMPLETE: memories zero, registers clear, and the core is its cluster's spare; a core that a failover has
chosen meanwhile waits for its load. -/
def execSpareInitComplete (p : Fin 72) (s : State) : Out :=
  .next (if s.bit (Reg.CORE_STATUS p.val) 7 then
      let s1 := ((s.zeroCoreMem p.val).clearCoreRegs p.val)
      let g := p.val / 9
      match s.roleOf p.val with
      | some _ => s1.setCoreState p.val 2 0
      | none => ((s1.setCoreState p.val 4 0).putBit (Reg.CLU_STATUS g) 0 true).setFld (Reg.CLU_STATUS g) 1 4 (p.val % 9)
    else s)

/-! ### Errors in a core's own memories (R359) -/

/-- UNCORR_DATA_HALT: the core halts at its next pass boundary after an uncorrectable error in its scratchpad or
accumulators; the word's block is poisoned. -/
def execUncorrDataHalt (p : Fin 72) (addr : BitVec 25) (s : State) : Out :=
  .next (if s.hasCore p.val then
    let a := coreBase p.val + addr.toNat
    let s1 := match tagKey a with
      | some (q, k) => s.setBlockTag q k ((Tag.ofCause .uncorrectable).join (s.blockTag q k))
      | none => s
    s1.haltCore p.val haltUncorrData (if accOff ≤ addr.toNat then 1 else 0) a false
  else s)

/-! ### Pending mode changes and external configuration (R93, R94, R116, R151) -/

/-- The ganging mode becomes the requested one; no engine holds a valid weight tile. -/
def State.applyGang (s : State) (p : Nat) : State :=
  let m := s.fld (Reg.CORE_GANG p) 0 2
  ((s.setFld (Reg.CORE_GANG p) 2 2 m).putBit (Reg.CORE_GANG p) 4 false).modCore p (fun c => { c with weights := [] })

/-- GANG_MODE_CHANGE: a pending mode takes effect once every engine has drained. -/
def execGangModeChange (p : Fin 72) (s : State) : Out :=
  .next (if s.bit (Reg.CORE_GANG p.val) 4 then s.applyGang p.val else s)

/-- The stat_mode of CORE_NUMCFG takes effect: the four statistics slots are cleared and marked partial. -/
def State.applyStat (s : State) (p : Nat) : State :=
  let m := s.fld (Reg.CORE_NUMCFG p) 1 2
  ((s.putBit (Reg.CORE_NUMCFG p) 9 false).modCore p (fun c => { c with statMode := m })).clearStats p

/-- STAT_MODE_CHANGE: a pending stat_mode takes effect once the earlier stores have completed. -/
def execStatModeChange (p : Fin 72) (s : State) : Out :=
  .next (if s.bit (Reg.CORE_NUMCFG p.val) 9 then s.applyStat p.val else s)

/-- A write to CORE_GANG from outside (R94). -/
def State.gangWrite (s : State) (p v : Nat) : State :=
  let s1 := if v.testBit 8 then s.putBit (Reg.CORE_GANG p) 8 false else s
  if s.coreStopped p then (s1.setFld (Reg.CORE_GANG p) 0 2 v).applyGang p else s1.sticky (Reg.CORE_GANG p) 8

/-- CORE_GANG_WRITE. -/
def execCoreGangWrite (p : Fin 72) (v : Word) (s : State) : Out :=
  .next (if s.hasCore p.val then s.gangWrite p.val v.toNat else s)

/-- A write to CORE_NUMCFG from outside (R116); a reserved stat_mode leaves the field as it is and sets rej. -/
def State.numcfgWrite (s : State) (p v : Nat) : State :=
  let r := Reg.CORE_NUMCFG p
  let s1 := if v.testBit 8 then s.putBit r 8 false else s
  if s.coreStopped p then
    let m := field v 1 2
    let s2 := s1.putBit r 0 (v.testBit 0)
    if m = 3 then s2.sticky r 8
    else if m = (s.core p).statMode then (s2.setFld r 1 2 m).putBit r 9 false else (s2.setFld r 1 2 m).applyStat p
  else s1.sticky r 8

/-- CORE_NUMCFG_WRITE. -/
def execCoreNumcfgWrite (p : Fin 72) (v : Word) (s : State) : Out :=
  .next (if s.hasCore p.val then s.numcfgWrite p.val v.toNat else s)

/-- A write to CORE_MAXABS_CLR from outside (R151). -/
def State.maxabsClrWrite (s : State) (p v : Nat) : State :=
  if s.coreStopped p then s.clearMax p (v.testBit 0) (v.testBit 1) else s.sticky (Reg.CORE_MAXABS_STAT p) 12

/-- CORE_MAXABS_CLR. -/
def execCoreMaxabsClr (p : Fin 72) (v : Word) (s : State) : Out :=
  .next (if s.hasCore p.val then s.maxabsClrWrite p.val v.toNat else s)

/-! ### Invalidations, caches and the window (R161, R166, R179, R189) -/

/-- A write to CORE_SEINV: one index, or all with bit 16. -/
def State.seinvWrite (s : State) (p v : Nat) : State := s.sendInval p (if v.testBit 16 then none else some (v % 4096))

/-- CORE_SEINV. -/
def execCoreSeinv (p : Fin 72) (v : Word) (s : State) : Out :=
  .next (if s.hasCore p.val then s.seinvWrite p.val v.toNat else s)

/-- A write to SYS_SDT_INV: every core and decode core gets the invalidation, and busy stays set until all have applied it. -/
def State.sdtInvWrite (s : State) (v : Nat) : State :=
  let i := if v.testBit 16 then none else some (v % 4096)
  let s1 := (List.range (9 * s.clusters)).foldl (fun t p => t.sendInval p i) s
  ({ s1 with vdec := { s1.vdec with inval := s1.vdec.inval ++ [i] } }).putBit Reg.SYS_SDT_INVSTAT 0 true

/-- SYS_SDT_INV. -/
def execSysSdtInv (v : Word) (s : State) : Out := .next (s.sdtInvWrite v.toNat)

/-- A write of one word of SYS_SDT_BASE (R189): refused in ARMED, RUNNING and HEDGE, or with address bits [17:0] set. -/
def State.sdtBaseWrite (s : State) (hi : Bool) (v master : Nat) : State :=
  let a := if hi then Reg.SYS_SDT_BASE_HI else Reg.SYS_SDT_BASE_LO
  let w := s.weaveState
  if w = 3 ∨ w = 4 ∨ w = 6 ∨ (hi = false ∧ v % 2 ^ 18 ≠ 0) then s.sticky Reg.SYS_MEMSTAT 0 else s.plainWrite a v master

/-- SYS_SDT_BASE_WRITE. -/
def execSysSdtBaseWrite (hi : Bool) (v : Word) (master : BitVec 8) (s : State) : Out :=
  .next (s.sdtBaseWrite hi v.toNat master.toNat)

/-- Base of the system cache window. -/
def windowBase : Nat := 0x1300000000

/-- The window takes n ways: joining ways are zeroed, leaving ways lose their contents, the others keep theirs (R166). -/
def State.setWindow (s : State) (n : Nat) : State :=
  let old := s.fld Reg.SYS_SC_WINDOW 0 5
  let k := min old n
  ((s.clearMem (windowBase + k * 0x200000) (windowBase + 0x2000000)).setFld Reg.SYS_SC_WINDOW 0 5 n).putBit Reg.SYS_MEMSTAT 1
    (old != n || s.bit Reg.SYS_MEMSTAT 1)

/-- Steward firmware runs from one of its halves (R433). -/
def State.stewardRuns (s : State) : Bool := !(if s.bit Reg.SEC_HANDOVER 5 then s.boot.half1 else s.boot.half0).isEmpty

/-- A write of SYS_SC_WINDOW (R166, R433). -/
def State.windowWrite (s : State) (v master : Nat) : State :=
  let n := v % 32
  let w := s.weaveState
  if s.locked Reg.SYS_SC_WINDOW then s.lockViolation Reg.SYS_SC_WINDOW master
  else if 16 < n ∨ ¬ (w = 0 ∨ w = 2 ∨ w = 5 ∨ w = 7) ∨ (n < 8 ∧ s.stewardRuns = true) then s.sticky Reg.SYS_MEMSTAT 0
  else s.setWindow n

/-- SC_WINDOW_WRITE. -/
def execScWindowWrite (v : Word) (master : BitVec 8) (s : State) : Out := .next (s.windowWrite v.toNat master.toNat)

/-- SC_WINDOW_FLUSH_DONE: the ways have been written back, zeroed or invalidated. -/
def execScWindowFlushDone (s : State) : Out := .next (s.putBit Reg.SYS_MEMSTAT 1 false)

/-- Drops every line of cluster g's read cache. -/
def State.dropReadCache (s : State) (g : Nat) : State :=
  { s with ccache := Tbl.clear (lineKey g 0) (lineKey (g + 1) 0) s.ccache }

/-- READ_CACHE_INVALIDATE (R161). -/
def execReadCacheInvalidate (g : Fin 8) (s : State) : Out :=
  .next (if g.val < s.clusters then s.dropReadCache g.val else s)

/-! ### Role table, parameters, registers and programs (R221, R222, R228, R231) -/

/-- A role-table write was ignored. -/
def State.roleRej (s : State) (g : Nat) : State := s.sticky (Reg.CLU_STATUS g) 14

/-- A software write to CLU_ROLEn (R228). -/
def State.roleWrite (s : State) (l v : Nat) : State :=
  let g := l / 8
  let slot := v % 16
  let w := s.weaveState
  let old := s.physOf l
  let new := if slot ≤ 8 then some (physCore g slot) else none
  let stopped := fun (c : Option Nat) => match c with | some p => s.coreStopped p | none => true
  let taken := match new with | some p => (s.roleOf p).isSome && s.roleOf p != some l | none => false
  if ¬ (w = 0 ∨ w = 2 ∨ w = 5 ∨ w = 7) ∨ (8 < slot ∧ slot ≠ 15) ∨ stopped old = false ∨ stopped new = false ∨ taken = true then
    s.roleRej g
  else if old = new then s
  else
    let a := Reg.CLU_ROLE g (l % 8)
    let s1 := ((s.setFld a 0 4 slot).setFld a 8 8 (s.roleEpoch l + 1)).putBit a 16 (slot ≤ 8)
    let s2 := s1.satAdd (Reg.CLU_ROLECHG g) 1
    let s3 := match new with
      | some p => if s2.coreState p = 4 then (s2.setCoreState p 0 0).putBit (Reg.CLU_STATUS g) 0 false else s2
      | none => s2
    let s4 := { s3 with weave := { s3.weave with noCore := s3.weave.noCore.filter (fun r => r != l) } }
    s4.updateFaultSet g

/-- ROLE_TABLE_WRITE. -/
def execRoleTableWrite (l : Fin 64) (v : Word) (s : State) : Out :=
  .next (if l.val < 8 * s.clusters then s.roleWrite l.val v.toNat else s)

/-- A write to CORE_PSHn of core p: it goes to the shadow set of the role, or of the core without one (R221). -/
def State.pshWrite (s : State) (p n : Nat) (v : Word) : State :=
  { s with pshadow := Tbl.set (fun _ => 0) s.pshadow (64 * s.paramOwner p + n) v }

/-- PARAMETER_SHADOW_WRITE. -/
def execParameterShadowWrite (p : Fin 72) (n : Fin 64) (v : Word) (s : State) : Out :=
  .next (if s.hasCore p.val then s.pshWrite p.val n.val v else s)

/-- A context with word n of CORE_S0 to CORE_S31 and CORE_A0_LO to CORE_A15_HI written. -/
def Context.setWord (c : Context) (n : Nat) (v : Word) : Context :=
  if n < 32 then c.setS n v
  else
    let i := (n - 32) / 2
    let a := (c.getA i).toNat
    c.setA i (BitVec.ofNat 40 (if n % 2 = 0 then a - a % 2 ^ 32 + v.toNat else a % 2 ^ 32 + v.toNat % 256 * 2 ^ 32))

/-- A write to word n of CORE_S0 to CORE_S31 and CORE_A0_LO to CORE_A15_HI (R222). -/
def State.ctxWrite (s : State) (p n : Nat) (v : Word) : State :=
  if s.coreState p = 0 ∨ s.coreState p = 3 then s.modCore p (fun c => { c with woven := c.woven.setWord n v })
  else s.sticky (Reg.CORE_STATUS p) 9

/-- CORE_REGISTER_WRITE. -/
def execCoreRegisterWrite (p : Fin 72) (n : Fin 64) (v : Word) (s : State) : Out :=
  .next (if s.hasCore p.val then s.ctxWrite p.val n.val v else s)

/-- Bytes written to core p's program memory at an offset in it: accepted only while the core is PARKED or HALTED (R231). -/
def State.progWrite (s : State) (p off : Nat) (bs : List Nat) : State :=
  if s.coreState p = 0 ∨ s.coreState p = 3 then s.setBytes (coreBase p + progOff + off) bs
  else (s.sticky (Reg.CORE_STATUS p) 8).satAdd (Reg.CORE_PROGREJ p) 1

/-- PROGRAM_WRITE of one word. -/
def execProgramWrite (p : Fin 72) (off : BitVec 18) (v : Word) (s : State) : Out :=
  .next (if s.hasCore p.val ∧ off.toNat % 4 = 0 then s.progWrite p.val off.toNat (leBytes 4 v.toNat) else s)

/-! ### Barriers and input waits (R48, R51, R227) -/

/-- SYNC_EXPIRY: a barrier that has not completed by the end of the pick after its woven pick; the waiting cores continue. -/
def execSyncExpiry (g : Fin 8) (b : Fin 8) (s : State) : Out :=
  .next (match s.barrier g.val b.val with
    | none => s
    | some v =>
      let ws := s.waitersAt g.val b.val
      if ws = [] ∨ v.expired then s
      else
        let s1 := (s.satAdd (Reg.CLU_SYNCTO g.val) 1).setBarrier g.val b.val (some { v with expired := true })
        ws.foldl (fun t p => (t.sticky (Reg.CORE_STATUS p) 11).leaveSync p) s1)

/-- The run of a command that can wait for input data. -/
def waitingRun (i : Instr) : Option (Bool → State → Eng) :=
  match i with
  | .seXfer x f => some (xferRun x f)
  | .mpass x f => some (mpassRun x f)
  | .pool x f => some (poolRun x f)
  | .dwconv x f => some (dwconvRun x f)
  | .carryBegin x r => some (carryRun x r)
  | _ => none

/-- The command that a context holds while it waits for input data. -/
def State.heldOf (s : State) (x : Ctx) : Option Instr :=
  match x with
  | .woven p => if s.coreState p.val = 2 then (s.core p.val).held else none
  | .loose p k => (s.loosejob p.val k.val).bind Job.held

/-- The wait of a context ends: it issues again. -/
def State.unhold (s : State) (x : Ctx) : State :=
  match x with
  | .woven p => (s.modCore p.val (fun c => { c with held := none })).setCoreState p.val 1 0
  | .loose p k => match s.loosejob p.val k.val with
    | some j => s.putJob { j with held := none }
    | none => s

/-- The held command of a context runs again: with its input present, or at the end of its wait. -/
def State.rerun (s : State) (x : Ctx) (expired : Bool) : State :=
  match s.heldOf x with
  | none => s
  | some i => match waitingRun i with
    | none => s
    | some run =>
      let s0 := if expired then (s.satAdd Reg.WV_INWAIT 1).sticky Reg.WV_IRQ_STATUS 8 else s
      match run expired (s0.unhold x) with
      | .wait => s
      | r => r.finish x i s0

/-- COMMAND_INPUT_PRESENT: the input of a waiting command is present and the command starts (R48). -/
def execCommandInputPresent (x : Ctx) (s : State) : Out := .next (s.rerun x false)

/-- INPUT_WAIT_EXPIRY: the wait ends, WV_INWAIT counts it, and the command proceeds with zeros and poisoned tiles (R51). -/
def execInputWaitExpiry (x : Ctx) (s : State) : Out := .next (s.rerun x true)

end Sys2Proof.Machine
end

