-- ==== Sys2Proof/Machine/Retire.lean ====
section
/-! DEFINITION. The retirement unit and the result rings (02_the_weave.md R52, R59, R71 to R79, R520, R522;
14 R378, R384, R385; 19 R491 to R497, R521). -/

namespace Sys2Proof.Machine

/-! ### Records (R72 to R75) -/

/-- A sequence stamp (Table, Sequence stamp). -/
def stampOf (stream frame item : Nat) : Nat := stream % 4096 * 2 ^ 52 + frame % 2 ^ 32 * 2 ^ 20 + item % 2 ^ 20

def recFiller : Nat := 0x0012
def recEnd : Nat := 0x0011
def recHole : Nat := 0x0010

/-- Stream number of ring control records. -/
def ringControl : Nat := 0xFFF

/-- The 64 bytes of a record: stamp, tick, type, flags, capture, bytes 24 to 47, variant, core and epoch, CRC-32C (R72). -/
def recordBytes (stamp tick type flags capture : Nat) (body : List Nat) (variant core epoch : Nat) : List Nat :=
  let b := leBytes 8 stamp ++ leBytes 4 tick ++ leBytes 2 type ++ leBytes 2 flags ++ leBytes 8 capture ++
    (body ++ List.replicate 24 0).take 24 ++ leBytes 2 variant ++ [core % 256, epoch % 256] ++ List.replicate 8 0
  b ++ leBytes 4 (crc32c b)

/-- Hole reasons (Table, Hole reasons). -/
def holeCoreFault : Nat := 0x01
def holeStaleRole : Nat := 0x02
def holeNoBuffer : Nat := 0x03
def holeMissingInput : Nat := 0x04
def holeUncorrectable : Nat := 0x05
def holePacketLoss : Nat := 0x06
def holeDecodeError : Nat := 0x07
def holeSuperseded : Nat := 0x08
def holeFrameTimeout : Nat := 0x09
def holeMalformed : Nat := 0x0A
def holeWeaveChange : Nat := 0x0B
def holeWeaveStop : Nat := 0x0C
def holeVariantSwitch : Nat := 0x0D
def holeDecoderFault : Nat := 0x0E
def holeHedgeEntry : Nat := 0x0F
def holeReducedRate : Nat := 0x10
def holeRingFull : Nat := 0x11

/-- Bytes 24 to 47 of a HOLE: reason, count, network and output. -/
def holeBody (reason count netout : Nat) : List Nat :=
  List.replicate 8 0 ++ leBytes 2 reason ++ leBytes 2 count ++ leBytes 4 netout ++ List.replicate 8 0

/-- Network and output of a hole whose missing record is not known. -/
def noNetOut : Nat := 0xFFFFFFFF

/-- The flag HEDGE of records that the hedge weave retires. -/
def State.hedgeFlag (s : State) : Nat := if s.weaveState = 6 then 64 else 0

/-- Id of the running variant. -/
def State.variantId (s : State) : Nat := s.fld Reg.WV_VARIANT 0 16

/-- The frame tick number. -/
def State.tick (s : State) : Nat := s.regN Reg.WV_TICK

/-- A HOLE record. -/
def State.holeRecord (s : State) (stream frame item reason count capture netout flags core epoch : Nat) : List Nat :=
  recordBytes (stampOf stream frame item) s.tick recHole (flags ||| s.hedgeFlag) capture (holeBody reason count netout)
    s.variantId core epoch

/-! ### Rings (R491 to R497) -/

/-- Base address of a ring. -/
def State.ringBase (s : State) (r : Nat) : Nat := s.reg64 (Reg.RING_BASE_LO r) % 2 ^ 40

/-- Entries of a ring. -/
def State.ringSize (s : State) (r : Nat) : Nat := 2 ^ s.fld (Reg.RING_CFG r) 0 5

/-- RING_CFG.valid. -/
def State.ringValid (s : State) (r : Nat) : Bool := s.bit (Reg.RING_CFG r) 5

/-- Records written and not yet released. -/
def State.ringHeld (s : State) (r : Nat) : Nat :=
  (s.regN (Reg.RING_WP r) + 2 ^ 32 - s.regN (Reg.RING_RP r)) % 2 ^ 32

/-- Free entries (R493); ring 255 overwrites and is never full (R496). -/
def State.ringFree (s : State) (r : Nat) : Nat := if r = 255 then s.ringSize r else s.ringSize r - s.ringHeld r

/-- Sets the ring's bit in RING_IRQ (R497). -/
def State.ringIrq (s : State) (r : Nat) : State :=
  if r = 255 then s.sticky Reg.RING_IRQ2 0
  else if r < 32 then s.sticky Reg.RING_IRQ0 r
  else s.sticky Reg.RING_IRQ1 (r - 32)

/-- What a ring has received in the tick. -/
def State.ringTick (s : State) (r : Nat) : RingTick := Tbl.get (fun _ => ⟨0, 0, 0, false⟩) s.weave.ringTick r

/-- Sets what a ring has received in the tick. -/
def State.setRingTick (s : State) (r : Nat) (v : RingTick) : State :=
  { s with weave := { s.weave with ringTick := Tbl.set (fun _ => ⟨0, 0, 0, false⟩) s.weave.ringTick r v } }

/-- Counts a written record in the ring's tick. -/
def RingTick.count (t : RingTick) (hole fe : Bool) : RingTick :=
  { t with records := t.records + (if fe then 0 else 1), holes := t.holes + (if hole then 1 else 0), busy := true }

/-- Writes a record to a ring: the 64 bytes, then WP, the counters and the interrupt conditions (R492, R496, R497). -/
def State.ringWrite (s : State) (r : Nat) (bs : List Nat) (hole fe : Bool) : State :=
  let wp := s.regN (Reg.RING_WP r)
  let s1 := (s.setBytes (s.ringBase r + 64 * (wp % s.ringSize r)) bs).setRegN (Reg.RING_WP r) ((wp + 1) % 2 ^ 32)
  let s2 := s1.wrapAdd64 Reg.WV_RECORDS_LO 1
  let s3 := if hole then s2.wrapAdd64 Reg.WV_HOLES_LO 1 else s2
  let s4 := s3.setRingTick r ((s3.ringTick r).count hole fe)
  let s5 := if r = 255 then { s4 with weave := { s4.weave with hedgeCount := s4.weave.hedgeCount + 1 } } else s4
  let n := s5.fld (Reg.RING_THRESH r) 0 21
  let held := if r = 255 then s5.weave.hedgeCount else s5.ringHeld r
  if (n ≠ 0 ∧ n ≤ held) ∨ (fe = true ∧ s5.bit (Reg.RING_THRESH r) 31 = true) then s5.ringIrq r else s5

/-- The owed range of a stream. -/
def State.owedOf (s : State) (stream : Nat) : Option Owed := Tbl.get (fun _ => none) s.weave.owed stream

/-- Sets the owed range of a stream. -/
def State.setOwed (s : State) (stream : Nat) (o : Option Owed) : State :=
  { s with weave := { s.weave with owed := Tbl.set (fun _ => none) s.weave.owed stream o } }

/-- The owed FRAME_END records of a ring, oldest first. -/
def State.feOwed (s : State) (r : Nat) : List (List Nat) := Tbl.get (fun _ => []) s.weave.feOwed r

/-- Sets the owed FRAME_END records of a ring. -/
def State.setFeOwed (s : State) (r : Nat) (l : List (List Nat)) : State :=
  { s with weave := { s.weave with feOwed := Tbl.set (fun _ => []) s.weave.feOwed r l } }

/-- The streams that ring r owes, in increasing number. -/
def State.owedOn (s : State) (r : Nat) : List (Nat × Owed) :=
  s.weave.owed.filterMap (fun e => match e.2 with
    | some o => if o.ring = r then some (e.1, o) else none
    | none => none)

/-- The ring owes an entry (R494). -/
def State.owes (s : State) (r : Nat) : Bool := !(s.feOwed r).isEmpty || !(s.owedOn r).isEmpty

/-- RING_STAT.owing and RING_OWED follow the owed state; a ring that begins to owe sets its interrupt bit (R497). -/
def State.refreshOwed (s : State) (r : Nat) : State :=
  let was := s.bit (Reg.RING_STAT r) 0
  let now := s.owes r
  let frames := (s.owedOn r).foldl (fun n e => n + ((e.2.last + 2 ^ 32 - e.2.frame) % 2 ^ 32 + 1)) 0
  let s1 := (s.putBit (Reg.RING_STAT r) 0 now).setRegN (Reg.RING_OWED r)
    (min frames 0xFFFFFF + min (s.feOwed r).length 255 * 2 ^ 24)
  if now && !was then s1.ringIrq r else s1

/-- What a retirement slot is due to write. -/
inductive Due where
  | none
  /-- a record of a stream frame: its item, its bytes, and the number of items it stands for, 0 for the rest of the frame -/
  | record (stream frame item : Nat) (bytes : List Nat) (hole : Bool) (count : Nat)
  | frameEnd (bytes : List Nat)
  | filler
  deriving DecidableEq, Repr

/-- Records the last stamp retired on a stream (R384). -/
def State.noteStamp (s : State) (stream frame item count : Nat) : State :=
  let v := some (frame, if count = 0 then Option.none else some (item + count))
  { s with weave := { s.weave with lastStamp := Tbl.set (fun _ => Option.none) s.weave.lastStamp stream v } }

/-- The FILLER record of a ring: stamped with the item of the ring's tick (R75). -/
def State.fillerRecord (s : State) (item pick : Nat) : List Nat :=
  recordBytes (stampOf ringControl s.tick item) s.tick recFiller s.hedgeFlag (1000 * pick) [] s.variantId 0xFF 0

/-- Writes the oldest owed FRAME_END of ring r, or the hole of its lowest owing stream (R494). -/
def State.writeOwed (s : State) (r : Nat) : State :=
  match s.feOwed r, s.owedOn r with
  | fe :: rest, _ => (s.setFeOwed r rest).ringWrite r fe false true
  | [], (st, o) :: _ =>
    let s1 := s.ringWrite r (s.holeRecord st o.frame o.item holeRingFull 0 0 noNetOut 0 0xFF 0) true false
    let s2 := s1.noteStamp st o.frame o.item 0
    s2.setOwed st (if o.frame = o.last then Option.none else some { o with frame := (o.frame + 1) % 2 ^ 32, item := 0 })
  | [], [] => s

/-- A retirement slot of ring r with what is due in it, in the pick given: the pseudocode of R494. -/
def State.retireSlot (s : State) (r pick : Nat) (e : Due) : State :=
  let room := decide (0 < s.ringFree r)
  let owed := fun (t : State) => if room then t.writeOwed r else t
  let s1 := match e with
    | .record st f i bs hole n =>
      match s.owedOf st with
      | some o => owed (s.setOwed st (some { o with last := f }))
      | Option.none =>
        if room then (s.ringWrite r bs hole false).noteStamp st f i n
        else s.setOwed st (some ⟨r, f, i, f⟩)
    | .frameEnd bs =>
      if !(s.feOwed r).isEmpty || !room then owed (s.setFeOwed r (s.feOwed r ++ [bs])) else s.ringWrite r bs false true
    | .filler =>
      if s.owes r || !room then owed s
      else
        let k := (s.ringTick r).fillers
        let s2 := s.ringWrite r (s.fillerRecord k pick) false false
        s2.setRingTick r { s2.ringTick r with fillers := k + 1 }
    | .none => owed s
  s1.refreshOwed r

/-! ### The slots of a tick (R59, R75) -/

/-- An implicit heartbeat slot. -/
def hbSlot (r pick : Nat) : RetSlot := ⟨pick, r, 1, 0xFF, 0, 0, 0, false, 0⟩

/-- A ring's slots with an implicit heartbeat slot at a pick, after its record slots and before its FRAME_END of that pick,
unless the table lists one there (R75). -/
def insertHb (r pick : Nat) : List RetSlot → List RetSlot
  | [] => [hbSlot r pick]
  | e :: es =>
    if e.pick = pick ∧ e.kind = 1 then e :: es
    else if e.pick < pick ∨ (e.pick = pick ∧ e.kind ≠ 2) then e :: insertHb r pick es
    else hbSlot r pick :: e :: es

/-- The slots of ring r in a tick of t picks. -/
def Variant.ringSlots (v : Variant) (r t : Nat) : List RetSlot :=
  let own := v.ret.filter (fun e => e.ring == r)
  match v.rings.find? (fun c => c.ring == r) with
  | none => own
  | some c =>
    if c.heartbeat = 0 then own
    else (List.range ((t - 1) / c.heartbeat)).foldl (fun l k => insertHb r ((k + 1) * c.heartbeat) l) own

/-- A slot after those of its pick and earlier. -/
def insertSlot (e : RetSlot) : List RetSlot → List RetSlot
  | [] => [e]
  | x :: xs => if x.pick ≤ e.pick then x :: insertSlot e xs else e :: x :: xs

/-- Every slot of a tick in retirement order: by pick, then by ring, then as the ring lists them (R59). -/
def Variant.slots (v : Variant) (t : Nat) : List RetSlot :=
  ((List.range 256).flatMap (fun r => v.ringSlots r t)).foldl (fun l e => insertSlot e l) []

/-! ### Frames of slots (R520) -/

/-- Openings of a stream, the most recent first. -/
def State.openingsOf (s : State) (stream : Nat) : List Opening := Tbl.get (fun _ => []) s.weave.openings stream

/-- Replaces the openings of a stream; nine are kept, since a slot counts back at most seven (Table, Retirement table entry). -/
def State.setOpenings (s : State) (stream : Nat) (l : List Opening) : State :=
  { s with weave := { s.weave with openings := Tbl.set (fun _ => []) s.weave.openings stream (l.take 9) } }

/-- Begins the frame of an internal stream where the slot says so (R520). -/
def State.beginInternal (s : State) (e : RetSlot) : State :=
  if e.stream < 0x800 ∨ e.first = false then s
  else
    let f := Tbl.get (fun _ => 0) s.weave.nextFrame e.stream
    let fr : FrameSt := ⟨f, 1000 * (s.weave.tickPick + e.pick), 0, none, 0, false⟩
    { s with weave := { s.weave with
        nextFrame := Tbl.set (fun _ => 0) s.weave.nextFrame e.stream ((f + 1) % 2 ^ 32),
        internal := Tbl.set (fun _ => none) s.weave.internal e.stream (some fr) } }

/-- The stream frame that a slot belongs to. -/
def State.slotFrame (s : State) (e : RetSlot) : Option FrameSt :=
  if e.stream < 0x800 then ((s.openingsOf e.stream)[e.back]?).bind Opening.chosen
  else Tbl.get (fun _ => none) s.weave.internal e.stream

/-- Updates the stream frame that a slot belongs to. -/
def State.putFrame (s : State) (e : RetSlot) (f : FrameSt) : State :=
  if e.stream < 0x800 then
    s.setOpenings e.stream ((s.openingsOf e.stream).mapIdx (fun i o => if i = e.back then { o with chosen := some f } else o))
  else { s with weave := { s.weave with internal := Tbl.set (fun _ => none) s.weave.internal e.stream (some f) } }

/-! ### Roles and queues (R52, R263, R378) -/

/-- The mapping under which a role's slots are served as core-fault holes: the role has no running core. -/
def State.roleDown (s : State) (l : Nat) : Option HoleServe :=
  match Tbl.get (fun _ => none) s.weave.serving l with
  | some h => some h
  | none =>
    match s.physOf l with
    | none => some ⟨s.roleEpoch l, false⟩
    | some p => if s.coreState p = 3 then some ⟨s.roleEpoch l, s.roleSlot l == some 8⟩ else none

/-- The record queue q of role l. -/
def State.roleQueue (s : State) (l q : Nat) : List QEntry :=
  match s.physOf l with
  | some p => Tbl.get (fun _ => []) (s.core p).queues q
  | none => []

/-- Removes the oldest entry of a record queue (R263). -/
def State.popQueue (s : State) (l q : Nat) : State :=
  match s.physOf l with
  | some p => s.modCore p (fun c => { c with queues := Tbl.set (fun _ => []) c.queues q ((Tbl.get (fun _ => []) c.queues q).drop 1) })
  | none => s

/-- The entry's valid bit (Table, Record entry). -/
def QEntry.valid (q : QEntry) : Bool := nbit (q.bytes.getD 26 0) 0

/-- The hole reason of a poison cause (R51, R174, R183). -/
def Poison.reason : Poison → Option Nat
  | .clean => none
  | .missing => some holeMissingInput
  | .stale => some holeStaleRole
  | .uncorrectable => some holeUncorrectable

/-- The reason for which an entry retires as a HOLE (R174, R213, R359). A poisoned survivor list holds an unknown number of
detections, so its entries count whether or not they are valid. -/
def QEntry.reason (q : QEntry) : Option Nat :=
  if q.uncorr then some holeUncorrectable
  else if q.valid || q.det then q.tag.cause.reason
  else none

/-- The entry retires nothing: padded, and no hole either. -/
def QEntry.empty (q : QEntry) : Bool := !q.valid && q.reason.isNone

/-- The entry retires as the HOLE of its whole frame (R213). -/
def QEntry.whole (q : QEntry) : Bool := q.det && !q.uncorr && q.tag.cause != .clean

/-- Openings of a stream after pick offset a up to pick offset b of the variant's timetables. -/
def Variant.openingsIn (v : Variant) (stream a b : Nat) : Nat :=
  (v.dec.filter (fun d => d.stream == stream && decide (a < d.pick) && decide (d.pick ≤ b))).length +
  (v.isp.filter (fun d => 0x400 + d.port == stream && decide (a < d.pick) && decide (d.pick ≤ b))).length

/-- The later slots that a count-1 HOLE in slot e absorbs (R522). seen lists the core and queue of each record slot passed,
in slots paired with their index and their pick counted from the tick of e. -/
def State.absorb (s : State) (v : Variant) (t : Nat) (e : RetSlot) (reason : Nat) :
    List (Nat × Nat) → List (RetSlot × Nat × Nat) → List Nat
  | _, [] => []
  | seen, (x, idx, pick) :: rest =>
    if x.kind ≠ 0 ∨ x.core = 0xFE then s.absorb v t e reason seen rest
    else
      let seen' := (x.core, x.queue) :: seen
      let between := if pick < t then v.openingsIn e.stream e.pick pick
                     else v.openingsIn e.stream e.pick t + v.openingsIn e.stream 0 (pick - t) +
                       (v.dec.filter (fun d => d.stream == e.stream && d.pick == 0)).length +
                       (v.isp.filter (fun d => 0x400 + d.port == e.stream && d.pick == 0)).length
      if x.stream ≠ e.stream then s.absorb v t e reason seen' rest
      else if 0x800 ≤ e.stream ∧ x.first = true then []
      else if e.stream < 0x800 ∧ x.back ≠ e.back + between then s.absorb v t e reason seen' rest
      else if (s.roleDown x.core).isSome then []
      else match (s.roleQueue x.core x.queue)[(seen.filter (fun k => k == (x.core, x.queue))).length]? with
        | none => []
        | some q =>
          if q.empty then s.absorb v t e reason seen' rest
          else if q.reason = some reason ∧ q.whole = false then idx :: s.absorb v t e reason seen' rest
          else []

/-! ### One slot (R51, R52, R71, R213, R302, R304, R378) -/

/-- The record of a queue entry: bytes 24 to 47 and type from the entry, the rest from the retirement unit (R262). -/
def State.entryRecord (s : State) (e : RetSlot) (f : FrameSt) (q : QEntry) : List Nat :=
  let flags := (if q.tag.carried = some true then 1 else 0) + f.flags + (if q.tag.sat then 8 else 0) +
    (if q.tag.flush then 16 else 0) + (if q.spare then 32 else 0) + s.hedgeFlag
  recordBytes (stampOf e.stream f.frame f.item) s.tick (leVal ((q.bytes.drop 24).take 2)) flags f.capture (q.bytes.take 24)
    s.variantId q.core q.epoch

/-- What an ingest slot retires: the next frame that its opening consumed without choosing it (R304). -/
def State.ingestDue (s : State) (e : RetSlot) : Due × State :=
  match (s.openingsOf e.stream)[e.back]? with
  | some ⟨ch, (frame, capture, reason) :: rest⟩ =>
    (.record e.stream frame 0 (s.holeRecord e.stream frame 0 reason 0 capture noNetOut 0 0xFF 0) true 0,
     s.setOpenings e.stream ((s.openingsOf e.stream).mapIdx (fun i o => if i = e.back then ⟨ch, rest⟩ else o)))
  | _ => (.none, s)

/-- What a record slot retires, from the frame it belongs to and the entry it removed. -/
def State.recordDue (s : State) (v : Variant) (t : Nat) (e : RetSlot) (rest : List (RetSlot × Nat × Nat)) (q : Option QEntry)
    (down : Option HoleServe) : Due × State :=
  match s.slotFrame e with
  | none => (.none, s)
  | some f =>
    if f.closed then (.none, s)
    else match f.hole, down, q with
      | some reason, _, _ =>
        (.record e.stream f.frame f.item (s.holeRecord e.stream f.frame f.item reason 0 f.capture noNetOut 0 0xFF 0) true 0,
         s.putFrame e { f with closed := true })
      | none, some h, _ =>
        (.record e.stream f.frame f.item (s.holeRecord e.stream f.frame f.item holeCoreFault 0 f.capture noNetOut
          (if h.spare then 32 else 0) e.core h.epoch) true 0, s.putFrame e { f with closed := true })
      | none, none, none => (.none, s)
      | none, none, some q =>
        match q.reason with
        | none =>
          if q.valid then (.record e.stream f.frame f.item (s.entryRecord e f q) false 1, s.putFrame e { f with item := f.item + 1 })
          else (.none, s)
        | some reason =>
          let nio := leVal ((q.bytes.drop 12).take 4)
          let fl := if q.spare then 32 else 0
          if q.whole then
            (.record e.stream f.frame f.item (s.holeRecord e.stream f.frame f.item reason 0 f.capture nio fl q.core q.epoch) true 0,
             s.putFrame e { f with closed := true })
          else
            let idx := s.absorb v t e reason [] rest
            let n := idx.length + 1
            let s1 := { s with weave := { s.weave with absorbed := s.weave.absorbed ++ idx } }
            (.record e.stream f.frame f.item (s.holeRecord e.stream f.frame f.item reason n f.capture nio fl q.core q.epoch) true n,
             s1.putFrame e { f with item := f.item + n })

/-- What slot number i of the tick retires, and the state without the queue entry it removes. -/
def State.slotDue (s : State) (v : Variant) (t i : Nat) (e : RetSlot) : Due × State :=
  if e.kind = 2 then
    let rt := s.ringTick e.ring
    (.frameEnd (recordBytes (stampOf ringControl s.tick 0xFFFFF) s.tick recEnd s.hedgeFlag (1000 * (s.weave.tickPick + t))
      (leBytes 4 rt.records ++ leBytes 4 rt.holes ++ leBytes 2 e.ring) s.variantId 0xFF 0), s)
  else if e.kind = 1 then ((if (s.ringTick e.ring).busy then .none else .filler), s)
  else if e.core = 0xFE then s.ingestDue e
  else
    let s1 := s.beginInternal e
    let down := s1.roleDown e.core
    let q := if down.isSome then none else (s1.roleQueue e.core e.queue).head?
    let s2 := if down.isSome then s1 else s1.popQueue e.core e.queue
    if s2.weave.absorbed.contains i then
      (.none, { s2 with weave := { s2.weave with absorbed := s2.weave.absorbed.filter (fun k => k != i) } })
    else
      let all := v.slots t
      let later := ((all.zipIdx.drop (i + 1)).map (fun (x, k) => (x, k, x.pick))) ++
        (all.zipIdx.map (fun (x, k) => (x, all.length + k, t + x.pick)))
      s2.recordDue v t e later q down

/-- Runs slot number i of the tick: WV_EMPTY counts a slot that stays unused and writes nothing. -/
def State.runSlot (s : State) (v : Variant) (t i : Nat) (e : RetSlot) : State :=
  let (due, s1) := s.slotDue v t i e
  let s2 := s1.retireSlot e.ring (s1.weave.tickPick + e.pick) due
  let s3 := if due = .none ∧ s2.regN (Reg.RING_WP e.ring) = s1.regN (Reg.RING_WP e.ring) then
      s2.wrapAdd64 Reg.WV_EMPTY_LO 1 else s2
  -- an entry written in a heartbeat slot itself does not count for the following one (R75)
  let s4 := if e.kind = 1 then s3.setRingTick e.ring { s3.ringTick e.ring with busy := false } else s3
  { s4 with weave := { s4.weave with slot := i + 1 } }

/-- Retires a hole that a stop, a changeover, a variant switch or hedge entry left (count 0, R73). -/
def State.retireHole (s : State) (h : DueHole) : State :=
  s.retireSlot h.ring s.pickNow (.record h.stream h.frame h.item
    (s.holeRecord h.stream h.frame h.item h.reason 0 h.capture noNetOut 0 0xFF 0) true 0)

/-- Writes the FRAME_END of the current tick on ring r with a capture time (R68, R69, R74, R383). -/
def State.retireEnd (s : State) (r capture : Nat) : State :=
  let rt := s.ringTick r
  s.retireSlot r s.pickNow (.frameEnd (recordBytes (stampOf ringControl s.tick 0xFFFFF) s.tick recEnd s.hedgeFlag capture
    (leBytes 4 rt.records ++ leBytes 4 rt.holes ++ leBytes 2 r) s.variantId 0xFF 0))

/-- A ring that the running image does not configure receives at most one owed entry per pick (R521). -/
def State.drainRings (s : State) : State :=
  s.weave.drains.foldl (fun t r =>
    let t1 := if 0 < t.ringFree r then (t.writeOwed r).refreshOwed r else t
    if t1.owes r then t1 else { t1 with weave := { t1.weave with drains := t1.weave.drains.filter (fun k => k != r) } }) s

/-! ### Configuration (R495, R496, R521) -/

/-- Configures ring r: WP and RP become 0, owed FRAME_ENDs are cleared and the generation counts. -/
def State.ringConfigure (s : State) (c : RingConf) : State :=
  let i := c.ring
  let s1 := (s.setRegN (Reg.RING_BASE_LO i) (c.base % 2 ^ 32)).setRegN (Reg.RING_BASE_HI i) (c.base / 2 ^ 32 % 256)
  let s2 := s1.setRegN (Reg.RING_CFG i) (c.log2 % 32 + 32 + (if c.ring = 255 then 64 else 0) + c.heartbeat % 65536 * 65536)
  let s3 := (s2.setRegN (Reg.RING_WP i) 0).setRegN (Reg.RING_RP i) 0
  let s4 := s3.setFld (Reg.RING_STAT i) 16 16 (s3.fld (Reg.RING_STAT i) 16 16 + 1)
  let s5 := (s4.setFeOwed c.ring []).setRingTick c.ring ⟨0, 0, 0, false⟩
  let hc := if c.ring = 255 then 0 else s5.weave.hedgeCount
  let s6 := { s5 with weave := { s5.weave with drains := s5.weave.drains.filter (fun k => k != c.ring), hedgeCount := hc } }
  s6.refreshOwed c.ring

/-- Every ring of an image, with the section that the running variant gives it, else the first variant that names it. -/
def Image.rings (im : Image) (v : Variant) : List RingConf :=
  (List.range 64).filterMap (fun r =>
    match v.rings.find? (fun c => c.ring == r) with
    | some c => some c
    | none => (im.variants.flatMap (fun x => x.rings)).find? (fun c => c.ring == r))

/-- At START every ring of the image is configured and owed state is cleared (R495). -/
def State.ringsStart (s : State) (cs : List RingConf) : State :=
  cs.foldl (fun t c =>
    (t.owedOn c.ring).foldl (fun u e => u.setOwed e.1 none) t |>.ringConfigure c) s

/-- The base and size of a ring are those of a section. -/
def State.sameRing (s : State) (c : RingConf) : Bool :=
  s.ringValid c.ring && s.ringBase c.ring == c.base && s.fld (Reg.RING_CFG c.ring) 0 5 == c.log2

/-- Rings that only the new image configures take records from the holes of the changeover tick on (R69, R495). -/
def State.ringsAdd (s : State) (old : List Nat) (cs : List RingConf) : State :=
  (cs.filter (fun c => !old.contains c.ring)).foldl (fun t c => (t.ringConfigure c).sticky (Reg.RING_STAT c.ring) 2) s

/-- At the end of a changeover tick (R495, R521): rings of unchanged base and size continue, others are configured afresh;
owed ranges move to the ring that the new image binds their stream to; old rings that still owe are drained. -/
def State.ringsChange (s : State) (old : List Nat) (cs : List RingConf) (bind : List Binding) : State :=
  let s1 := cs.foldl (fun t c =>
    if !old.contains c.ring then t
    else if t.sameRing c then t.setFld (Reg.RING_CFG c.ring) 16 16 c.heartbeat
    else (t.ringConfigure c).sticky (Reg.RING_STAT c.ring) 2) s
  let s2 := s1.weave.owed.foldl (fun t e => match e.2 with
    | some o => t.setOwed e.1 (some { o with ring := match bind.find? (fun b => b.stream == e.1) with | some b => b.ring | none => o.ring })
    | none => t) s1
  let gone := (old ++ s2.weave.drains).filter (fun r => !(cs.any (fun c => c.ring == r)) && s2.owes r)
  let s3 := { s2 with weave := { s2.weave with drains := gone.eraseDups } }
  (List.range 64).foldl (fun t r => if t.ringValid r then t.refreshOwed r else t) s3

end Sys2Proof.Machine
end

