-- ==== Sys2Proof/Machine/Jobs.lean ====
section
/-! DEFINITION. Loose jobs: queues, dispatch, pre-emption, saves and restores, and the loose translation
(10_jobs_and_preemption.md R270 to R290). -/

namespace Sys2Proof.Machine

/-! ### Queues (R270 to R273) -/

/-- log2 of client n's ring size. -/
def State.jqSize (s : State) (n : Nat) : Nat := 2 ^ s.fld (Reg.WV_JQ_CFG n) 0 4

/-- A master that may write the client's TAIL and CANCEL (R270). -/
def State.jqOwner (s : State) (n master : Nat) : Bool :=
  match s.fld (Reg.WV_JQ_CFG n) 6 2 with
  | 0 => true
  | 1 => decide (0x50 ≤ master ∧ master ≤ 0x57)
  | 2 => master == Config.masterPcie
  | _ => master == Config.masterSteward

/-- Address of entry i of client n's ring. -/
def State.jqEntry (s : State) (n i : Nat) : Nat := s.reg64 (Reg.WV_JQ_BASE_LO n) % 2 ^ 40 + 64 * i

/-- A write to WV_JQn_TAIL (R270, R271). -/
def State.jqTailWrite (s : State) (n v master : Nat) : State :=
  let size := s.jqSize n
  let tail := s.fld (Reg.WV_JQ_TAIL n) 0 12
  let head := s.fld (Reg.WV_JQ_HEAD n) 0 12
  let t := v % 4096
  let adv := (t + size - tail % size) % size
  if s.jqOwner n master = false then s.sticky (Reg.WV_JQ_STAT n) 4
  else if t < size ∧ adv ≤ size - 1 - (tail + size - head % size) % size then
    (s.setFld (Reg.WV_JQ_TAIL n) 0 12 t).wrapAdd (Reg.WV_JQ_SUBMIT n) adv
  else s.sticky (Reg.WV_JQ_STAT n) 3

/-- JOB_SUBMIT: a master writes WV_JQn_TAIL. -/
def execJobSubmit (n : Fin 16) (v : Word) (master : BitVec 8) (s : State) : Out :=
  .next (s.jqTailWrite n.val v.toNat master.toNat)

/-- The entries of client n from HEAD to TAIL − 1. -/
def State.jqWaiting (s : State) (n : Nat) : List Nat :=
  let size := s.jqSize n
  let head := s.fld (Reg.WV_JQ_HEAD n) 0 12
  (List.range ((s.fld (Reg.WV_JQ_TAIL n) 0 12 + size - head % size) % size)).map (fun i => (head + i) % size)

/-- A write to WV_JQn_CANCEL: one entry, or all (R270, R290). -/
def State.jqCancelWrite (s : State) (n v master : Nat) : State :=
  if s.jqOwner n master = false then s.sticky (Reg.WV_JQ_STAT n) 4
  else
    let all := v.testBit 16
    let i := v % 4096
    let s1 := s.setJobs (s.jobs.jobs.map (fun j =>
      if j.client = n ∧ (all = true ∨ j.descAddr = s.jqEntry n i) then { j with cancelled := true } else j))
    let add := ((s1.jqWaiting n).filter (fun k => all || k == i)).map (fun k => (n, k))
    { s1 with jobs := { s1.jobs with cancel := s1.jobs.cancel ++ add.filter (fun e => !s1.jobs.cancel.contains e) } }

/-- JOB_CANCEL. -/
def execJobCancel (n : Fin 16) (v : Word) (master : BitVec 8) (s : State) : Out :=
  .next (s.jqCancelWrite n.val v.toNat master.toNat)

/-- A write to WV_JQn_CFG: locked with the queues; a size outside 4 to 12 is not taken; enable 0 ends the client's jobs
(R270, R289). -/
def State.jqCfgWrite (s : State) (n v master : Nat) : State :=
  let a := Reg.WV_JQ_CFG n
  if s.locked a then s.lockViolation a master
  else
    let size := v % 16
    let good := decide (4 ≤ size ∧ size ≤ 12)
    let s1 := if good then s.plainWrite a v master else s.plainWrite a (putField v 0 4 (s.fld a 0 4)) master
    let s2 := if good then s1 else s1.sticky (Reg.WV_JQ_STAT n) 5
    if v.testBit 8 then s2
    else
      let s3 := s2.setJobs (s2.jobs.jobs.map (fun j => if j.client = n ∧ j.phase = .saving then { j with cancelled := true } else j))
      s3.endJobs endCancelled (fun j => j.client == n && j.phase != .saving)

/-- JOB_QUEUE_DISABLE: WV_JQn_CFG is written with enable 0. -/
def execJobQueueDisable (n : Fin 16) (v : Word) (master : BitVec 8) (s : State) : Out :=
  .next (if v.toNat.testBit 8 then s else s.jqCfgWrite n.val v.toNat master.toNat)

/-- A write to WV_JQn_BASE, CORES or SAVE: refused while the client is enabled (R270). -/
def State.jqPlainWrite (s : State) (n a v master : Nat) : State :=
  if s.bit (Reg.WV_JQ_CFG n) 8 then s.sticky (Reg.WV_JQ_STAT n) 5 else s.plainWrite a v master

/-! ### Loose images and descriptors (R272, R274, R276) -/

/-- The fields of a loose image header that placement uses. -/
structure LooseHdr where
  weft : Nat
  native : Nat
  slots : Nat
  tiles : Nat
  spOff : Nat
  spSize : Nat
  mode : Nat
  ftz : Bool
  deriving DecidableEq, Repr

/-- Reads and checks a loose image (Table, Loose image header). -/
def State.looseHdr (s : State) (a : Nat) : Option LooseHdr :=
  let h : LooseHdr := ⟨s.le (a + 8) 4, s.le (a + 12) 4, s.le (a + 16) 2, s.le (a + 18) 2, s.le (a + 20) 4, s.le (a + 24) 4,
    s.byte (a + 28), nbit (s.byte (a + 29)) 0⟩
  if a % 4096 = 0 ∧ s.readableMem a 64 = true ∧ s.le a 4 = 0x534F4F4C ∧ s.le (a + 4) 2 = 1 ∧
      s.le (a + 6) 2 = s.fld Reg.SYS_PARTID 0 16 ∧ crc32c (s.bytes a 60) = s.le (a + 60) 4 ∧ h.weft ≤ 16384 ∧
      h.spOff % 4096 = 0 ∧ h.spSize % 4096 = 0 ∧ h.spSize ≤ 0x200000 ∧ h.mode ≤ 3 ∧
      s.readableMem (a + 64) h.native = true ∧ crc32c (s.bytes (a + 64) h.native) = s.le (a + 52) 4 then some h
  else none

/-- Some DRAM line of a range reads as uncorrectable. -/
def State.badRange (s : State) (a n : Nat) : Bool :=
  decide (0 < n) && (List.range ((a + n - 1) / 128 + 1 - a / 128)).any (fun i => s.lineBad (a / 128 + i))

/-! ### Placement (R277, R278) -/

/-- CORE_LALLOW in force for physical core p: start and size in bytes (R290). -/
def State.allowance (s : State) (p : Nat) : Nat × Nat :=
  let v := (Tbl.get (fun _ => 0) s.jobs.allow p : Word).toNat
  (4096 * field v 0 9, 4096 * field v 16 10)

/-- CORE_LTILES in force for physical core p. -/
def State.tilesAllowed (s : State) (p : Nat) : Nat := (Tbl.get (fun _ => 0) s.jobs.tiles p : Word).toNat % 65536

/-- Ranges, tiles and slots lie within the allowance of physical core p and its free slots. -/
def State.covered (s : State) (p spOff spSize tiles slots : Nat) : Bool :=
  let (b, n) := s.allowance p
  (spSize == 0 || (decide (b ≤ spOff) && decide (spOff + spSize ≤ b + n))) && (tiles &&& s.tilesAllowed p) == tiles &&
    (slots &&& s.fld (Reg.CORE_LSLOTS p) 0 16) == slots

/-- Two jobs' ranges, tiles or slots overlap. -/
def overlaps (o1 n1 t1 s1 o2 n2 t2 s2 : Nat) : Bool :=
  (decide (o1 < o2 + n2) && decide (o2 < o1 + n1)) || t1 &&& t2 != 0 || s1 &&& s2 != 0

/-- Cluster g is under gradient alarm (R402). -/
def State.gradient (s : State) (g : Nat) : Bool := s.bit (Reg.CLU_THERMST g) 1

/-- A job fits logical core l beside the resident jobs given (R277), in a cluster that is not under gradient alarm (R402). -/
def State.fits (s : State) (l : Nat) (residents : List Job) (spOff spSize tiles slots : Nat) : Bool :=
  match s.physOf l with
  | none => false
  | some p =>
    (s.coreState p == 1 || s.coreState p == 2) && !s.gradient (p / 9) && decide (residents.length < 2) && s.covered p spOff spSize tiles slots &&
      residents.all (fun j => !overlaps spOff spSize tiles slots j.spOff j.spSize j.tiles j.slots)

/-- Jobs that hold a loose context of logical core l. -/
def State.residents (s : State) (l : Nat) : List Job := s.jobs.jobs.filter (fun j => j.core == l && j.resident)

/-- A free loose context of logical core l. -/
def State.freeCtx (s : State) (l : Nat) : Nat := if (s.jobAt l 0).isSome then 1 else 0

/-- Logical cores that client n may use and the part has. -/
def State.jqCores (s : State) (n : Nat) : List Nat :=
  (List.range (8 * s.clusters)).filter (fun l => (s.reg64 (Reg.WV_JQ_CORES_LO n)).testBit l)

/-- Priority of client n. -/
def State.prio (s : State) (n : Nat) : Nat := s.fld (Reg.WV_JQ_CFG n) 4 2

/-- A candidate for placement: a saved job, or the job at HEAD of a client with its header and the cores it may take. -/
inductive Cand where
  | saved (j : Job)
  | head (n : Nat)
  deriving DecidableEq, Repr

/-- Clients in the order of R279: by decreasing priority, then round-robin after the last one served. -/
def State.clientOrder (s : State) : List Nat :=
  [3, 2, 1, 0].flatMap (fun p => ((List.range 16).map (fun i => (s.jobs.robin + 1 + i) % 16)).filter (fun n => s.prio n == p))

/-- Saved jobs of a client in order of their save. -/
def State.savedOf (s : State) (n : Nat) : List Job :=
  (s.jobs.jobs.filter (fun j => j.client == n && j.phase == .saved)).foldl (fun l j =>
    (l.takeWhile (fun k => decide (k.saveOrder ≤ j.saveOrder))) ++ j :: l.dropWhile (fun k => decide (k.saveOrder ≤ j.saveOrder))) []

/-- The candidates of a pick boundary (R279). -/
def State.candidates (s : State) : List Cand :=
  s.clientOrder.flatMap (fun n => (s.savedOf n).map Cand.saved ++
    (if s.bit (Reg.WV_JQ_CFG n) 8 && s.fld (Reg.WV_JQ_HEAD n) 0 12 != Tbl.get (fun _ => 0) s.jobs.tail n then [Cand.head n] else []))

/-- Advances HEAD of client n. -/
def State.advanceHead (s : State) (n : Nat) : State :=
  s.setFld (Reg.WV_JQ_HEAD n) 0 12 ((s.fld (Reg.WV_JQ_HEAD n) 0 12 + 1) % s.jqSize n)

/-- Ends the job at HEAD of client n that was never placed (R272, R273): its job number and last instruction are not stated. -/
def State.endHead (s : State) (n code : Nat) : State :=
  let a := s.jqEntry n (s.fld (Reg.WV_JQ_HEAD n) 0 12)
  if s.readableMem a 64 then
    let (num, s1) := s.free 6
    let (pc, s2) := s1.free 20
    (s2.writeJobEnd n a code 0 num 0x3F pc (nbit (s2.byte (a + 9)) 0)).advanceHead n
  else ((s.busError a 0x64 true).wrapAdd (Reg.WV_JQ_DONE n) 1).advanceHead n

/-- The header and the allowed cores of the job at HEAD, none where it is a BAD_JOB. -/
def State.headJob (s : State) (n : Nat) : Option (LooseHdr × List Nat) :=
  let a := s.jqEntry n (s.fld (Reg.WV_JQ_HEAD n) 0 12)
  if s.readableMem a 64 then
    let core := s.byte (a + 8)
    match s.looseHdr (s.le a 8) with
    | none => none
    | some h =>
      if core = 0xFF then some (h, s.jqCores n)
      else if (s.jqCores n).contains core then some (h, [core])
      else none
  else none

/-- Number k of a client not held by a job. -/
def State.freeNum (s : State) (n : Nat) : Option Nat :=
  (List.range 4).find? (fun k => !(s.jobs.jobs.any (fun j => j.num == 4 * n + k)))

/-- Places the job at HEAD of client n on logical core l (R276, R278). -/
def State.placeHead (s : State) (n l : Nat) (h : LooseHdr) : State :=
  match s.freeNum n with
  | none => s
  | some k =>
    let a := s.jqEntry n (s.fld (Reg.WV_JQ_HEAD n) 0 12)
    let ps : Tbl Word := (List.range 4).foldl (fun t i => Tbl.set (fun _ => 0) t i (BitVec.ofNat 32 (s.le (a + 16 + 4 * i) 4))) []
    let c := { Context.init with p := ps, a := Tbl.set (fun _ => 0) [] 0 (BitVec.ofNat 40 (aliasBase l + h.spOff)) }
    let j : Job := ⟨4 * n + k, a, s.le a 8, l, nbit (s.byte (a + 9)) 0, c, s.freeCtx l, .running, h.ftz, h.mode, h.tiles, h.slots,
      h.spOff, h.spSize, h.weft, s.pickNow, 0, false, none, 0, [], []⟩
    let s1 := (s.setJobs (s.jobs.jobs ++ [j])).advanceHead n
    let s2 := { s1 with jobs := { s1.jobs with robin := n } }
    if s.badRange (j.image + 64) h.native then s2.endJob j endUncorrectable 0 else s2

/-- Places or restores one candidate of a boundary. -/
def State.serveCand (s : State) : Cand → State
  | .saved j =>
    match s.physOf j.core with
    | none => s
    | some p =>
      if !(s.coreState p == 1 || s.coreState p == 2) then s
      else if !s.covered p j.spOff j.spSize j.tiles j.slots then s.endJob j endAllowance 0
      else if s.fits j.core (s.residents j.core) j.spOff j.spSize j.tiles j.slots then
        let s1 := s.putJob { j with phase := .restoring, ctxSlot := s.freeCtx j.core, since := s.pickNow }
        { s1 with jobs := { s1.jobs with robin := j.client } }
      else s
  | .head n =>
    let i := s.fld (Reg.WV_JQ_HEAD n) 0 12
    if s.jobs.cancel.contains (n, i) then
      let s1 := s.endHead n endCancelled
      { s1 with jobs := { s1.jobs with cancel := s1.jobs.cancel.filter (fun e => e != (n, i)) } }
    else match s.headJob n with
      | none => s.endHead n endBadJob
      | some (h, ls) =>
        if (s.freeNum n).isNone then s
        else match ls.find? (fun l => s.fits l (s.residents l) h.spOff h.spSize h.tiles h.slots) with
          | none => s
          | some l => s.placeHead n l h

/-! ### Pre-emption (R285) -/

/-- A resident job that the dispatcher may choose. -/
def Job.choosable (j : Job) : Bool := j.phase == .running

/-- Pre-empts a job: it drains. -/
def State.preempt (s : State) (j : Job) : State :=
  (s.putJob { j with phase := .draining }).wrapAdd (Reg.WV_JQ_PREEMPT j.client) 1

/-- The resident jobs whose removal alone would let a candidate of client n, with its ranges, fit logical core l: jobs of
lower priority, or one of equal priority that has used up its client's quantum (R285). -/
def State.inTheWay (s : State) (n l spOff spSize tiles slots : Nat) : List Job :=
  let rs := s.residents l
  if s.fits l rs spOff spSize tiles slots then []
  else
    let clash := fun (j : Job) => overlaps spOff spSize tiles slots j.spOff j.spSize j.tiles j.slots
    let low := rs.filter (fun j => decide (s.prio j.client < s.prio n))
    let keep := rs.filter (fun j => !decide (s.prio j.client < s.prio n))
    if s.fits l keep spOff spSize tiles slots then
      let cs := low.filter clash
      if cs.isEmpty then low.take 1 else cs
    else
      (rs.filter (fun j =>
        let q := s.fld (Reg.WV_JQ_CFG j.client) 16 16
        decide (s.prio j.client = s.prio n) && q != 0 && decide (j.since + q ≤ s.pickNow) &&
          s.fits l (rs.filter (fun k => k.num != j.num)) spOff spSize tiles slots)).take 1

/-- Pre-emptions for one candidate. -/
def State.preemptFor (s : State) (c : Cand) : State :=
  let js := match c with
    | .saved j => s.inTheWay j.client j.core j.spOff j.spSize j.tiles j.slots
    | .head n =>
      if s.jobs.cancel.contains (n, s.fld (Reg.WV_JQ_HEAD n) 0 12) ∨ (s.freeNum n).isNone = true then []
      else match s.headJob n with
        | none => []
        | some (h, ls) =>
          if ls.any (fun l => s.fits l (s.residents l) h.spOff h.spSize h.tiles h.slots) then []
          else match ls.find? (fun l => !(s.inTheWay n l h.spOff h.spSize h.tiles h.slots).isEmpty) with
            | none => []
            | some l => s.inTheWay n l h.spOff h.spSize h.tiles h.slots
  (js.filter Job.choosable).foldl (fun t j => t.preempt j) s

/-- A pending stop or replacement is at most 256 picks away (R285). -/
def State.nearEnd (s : State) : Bool :=
  (s.bit Reg.WV_STATUS 4 || s.bit Reg.WV_STATUS 5) && s.weaveState == 4 && decide (s.weave.tickLen ≤ s.offset + 256)

/-- The dispatcher at a pick boundary (R279, R285, R289, R290, R402). -/
def State.dispatchJobs (s : State) : State :=
  let ps := List.range (9 * s.clusters)
  let tails := (List.range 16).foldl (fun t n => Tbl.set (fun _ => 0) t n (s.fld (Reg.WV_JQ_TAIL n) 0 12)) []
  let allow := ps.foldl (fun t p => Tbl.set (fun _ => 0) t p (s.reg (Reg.CORE_LALLOW p))) []
  let tiles := ps.foldl (fun t p => Tbl.set (fun _ => 0) t p (s.reg (Reg.CORE_LTILES p))) []
  let s1 := { s with jobs := { s.jobs with tail := tails, allow := allow, tiles := tiles } }
  let s2 := s1.endJobs endAllowance (fun j => j.resident && (match s1.physOf j.core with
    | some p => !s1.covered p j.spOff j.spSize j.tiles j.slots
    | none => false))
  let s3 := s2.endJobs endCancelled (fun j => j.cancelled && j.phase != .saving)
  if s3.bit Reg.WV_JOBCTRL 0 = false then s3
  else
    let s4 := s3.candidates.foldl (fun t c => t.preemptFor c) s3
    let s5 := if s4.nearEnd then (s4.jobs.jobs.filter Job.choosable).foldl (fun t j => t.preempt j) s4 else s4
    let s6 := (s5.jobs.jobs.filter (fun j => j.choosable && s5.gradient (j.core / 8))).foldl (fun t j => t.preempt j) s5
    s6.candidates.foldl (fun t c => t.serveCand c) s6

/-! ### Save and restore (R286 to R288) -/

/-- The save area of a job (R287). -/
def State.saveArea (s : State) (j : Job) : Nat := s.reg64 (Reg.WV_JQ_SAVE_LO j.client) % 2 ^ 40 + j.core * 0x266000

/-- The dispatched job with a number. -/
def State.jobNum (s : State) (n : Nat) : Option Job := s.jobs.jobs.find? (fun j => j.num == n)

/-- JOB_DRAIN_COMPLETE: the in-flight work of a pre-empted job has ended and its save begins. -/
def execJobDrainComplete (num : Fin 64) (s : State) : Out :=
  .next (match s.jobNum num.val with
    | some j =>
      if j.phase = .draining then
        let s1 := s.putJob { j with phase := .saving, saveOrder := s.jobs.saveSeq }
        { s1 with jobs := { s1.jobs with saveSeq := s1.jobs.saveSeq + 1 } }
      else s
    | none => s)

/-- The 32-bit words of a table. -/
def wordBytes (t : Tbl Word) (n : Nat) : List Nat := (List.range n).flatMap (fun i => leBytes 4 (Tbl.get (fun _ => 0) t i : Word).toNat)

/-- The 32-bit words of a table of indices. -/
def natBytes (t : Tbl Nat) (n : Nat) : List Nat := (List.range n).flatMap (fun i => leBytes 4 (Tbl.get (fun _ => 0) t i))

/-- The first 616 bytes of the context block (Table, Context block). -/
def Context.block (c : Context) (pos : List Nat) : List Nat :=
  wordBytes c.p 64 ++ wordBytes c.s 32 ++
  (List.range 16).flatMap (fun i => leBytes 8 (Tbl.get (fun _ => 0) c.a i : DevAddr).toNat) ++
  wordBytes c.lc 4 ++ natBytes c.stack 4 ++ natBytes c.lstart 4 ++ natBytes c.lend 4 ++ natBytes c.lframe 4 ++
  leBytes 4 c.pc ++ pos ++ leBytes 4 (c.depth * 16 + c.sp * 256)

/-- A table of words from bytes. -/
def wordsOf (b : List Nat) (o n : Nat) : Tbl Word :=
  (List.range n).foldl (fun t i => Tbl.set (fun _ => 0) t i (BitVec.ofNat 32 (sub b (o + 4 * i) 4))) []

/-- A table of indices from bytes. -/
def natsOf (b : List Nat) (o n : Nat) : Tbl Nat :=
  (List.range n).foldl (fun t i => Tbl.set (fun _ => 0) t i (sub b (o + 4 * i) 4)) []

/-- A context from its block. -/
def Context.ofBlock (b : List Nat) : Context :=
  { pc := sub b 592 4, s := wordsOf b 256 32,
    a := (List.range 16).foldl (fun t i => Tbl.set (fun _ => 0) t i (BitVec.ofNat 40 (sub b (384 + 8 * i) 8))) [],
    p := wordsOf b 0 64, lc := wordsOf b 512 4, stack := natsOf b 528 4, lstart := natsOf b 544 4, lend := natsOf b 560 4,
    lframe := natsOf b 576 4, depth := field (sub b 612 4) 4 4, sp := field (sub b 612 4) 8 3 }

/-- The core addresses that a job's save moves, with their offsets in the save area. -/
def saveRanges (p : Nat) (j : Job) : List (Nat × Nat × Nat) :=
  (j.spOff, coreBase p + j.spOff, j.spSize) ::
    (List.range 4).flatMap (fun e => ((List.range 16).filter (fun t => j.tiles.testBit t)).map (fun t =>
      (0x200000 + e * 0x10000 + t * 0x1000, accAddr p e t 0 0, 0x1000)))

/-- Bytes that the dispatcher writes to the save area: a bus error where no writable memory lies. -/
def State.agentWrite (s : State) (a : Nat) (bs : List Nat) : State :=
  match s.place a bs.length with
  | .dram h => if s.chanDead h then s else (s.setBytes h bs).healLines ((List.range bs.length).map (fun i => h + i))
  | .window h => (s.setBytes h bs).healLines ((List.range bs.length).map (fun i => h + i))
  | _ => s.busError a 0x64 true

/-- JOB_SAVE_COMPLETE: the last byte of the save has been written; the context is free. -/
def execJobSaveComplete (num : Fin 64) (s : State) : Out :=
  .next (match s.jobNum num.val with
    | some j =>
      match s.physOf j.core with
      | none => s
      | some p =>
        if j.phase ≠ .saving then s
        else
          let area := s.saveArea j
          let s1 := (saveRanges p j).foldl (fun t (o, a, n) => t.agentWrite (area + o) (t.bytes a n)) s
          let pos := (List.range 4).flatMap (fun e => leBytes 4 (s.regN (Reg.CORE_MEPOS p e)))
          let s2 := s1.agentWrite (area + 0x240000) (j.ctx.block pos)
          let (recs, s3) := s2.freeBytes 1024
          let s4 := s3.agentWrite (area + 0x240400) recs
          let mine := fun (i : Nat) => j.slots.testBit i
          let keys := (saveRanges p j).flatMap (fun (_, a, n) => (blockSpans a n).filterMap (fun (lo, _) => tagKey lo))
          let sl := (s4.core p).slots.filter (fun e => mine e.1)
          let tg := (s4.core p).tags.filter (fun e => keys.contains (p, e.1))
          let s5 := s4.modCore p (fun c => { c with slots := c.slots.filter (fun e => !mine e.1) })
          let s6 := s5.putJob { j with phase := .saved, savedSlots := sl, savedTags := tg }
          if j.cancelled then s6.endJob j endCancelled 0 else s6
    | none => s)

/-- JOB_RESTORE_COMPLETE: the save area has been read back and the job resumes at its saved PC; an uncorrectable error in
the area ends it. -/
def execJobRestoreComplete (num : Fin 64) (s : State) : Out :=
  .next (match s.jobNum num.val with
    | some j =>
      match s.physOf j.core with
      | none => s
      | some p =>
        if j.phase ≠ .restoring then s
        else
          let area := s.saveArea j
          let rs := saveRanges p j
          if rs.any (fun (o, _, n) => s.badRange (area + o) n) || s.badRange (area + 0x240000) 8192 then
            s.endJob j endUncorrectable 0
          else
            let s1 := rs.foldl (fun t (o, a, n) => t.setBytes a (t.bytes (area + o) n)) s
            let c := Context.ofBlock (s.bytes (area + 0x240000) 616)
            let s2 := s1.modCore p (fun k => { k with
              slots := j.savedSlots.foldl (fun t e => Tbl.insert e.1 e.2 t) k.slots,
              tags := j.savedTags.foldl (fun t e => Tbl.insert e.1 e.2 t) k.tags })
            s2.putJob { j with phase := .running, ctx := c, savedSlots := [], savedTags := [] }
    | none => s)

/-! ### Allowances (R290) -/

/-- A write to CORE_LALLOW or CORE_LTILES: in force from the next pick boundary; an allowance beyond the scratchpad is
ignored. -/
def State.allowWrite (s : State) (p : Nat) (tiles : Bool) (v master : Nat) : State :=
  if tiles then s.plainWrite (Reg.CORE_LTILES p) v master
  else if 512 < field v 0 9 + field v 16 10 then s
  else s.plainWrite (Reg.CORE_LALLOW p) v master

/-- LOOSE_ALLOWANCE_WRITE. -/
def execLooseAllowanceWrite (p : Fin 72) (tiles : Bool) (v : Word) (s : State) : Out :=
  .next (if s.hasCore p.val then s.allowWrite p.val tiles v.toNat 0x64 else s)

/-! ### Translation of a loose program (R274, R275) -/

/-- A write to WV_LPT_CTRL: TRANSLATE starts the threader; while it is busy the write has no effect. -/
def State.lptWrite (s : State) (v : Nat) : State :=
  if v.testBit 0 ∧ s.bit Reg.WV_LPT_STAT 8 = false then s.setFld Reg.WV_LPT_STAT 0 9 0x100 else s

/-- TRANSLATE. -/
def execTranslate (v : Word) (s : State) : Out := .next (s.lptWrite v.toNat)

end Sys2Proof.Machine
end

