-- ==== Sys2Proof/Machine/Scalar.lean ====
section
/-! DEFINITION. The scalar ALU, the address registers, scalar memory and the configuration writes of weft
(09_weft_reference.md, majors 0x01 to 0x05; R244, R250 to R252). -/

namespace Sys2Proof.Machine

/-- Major opcode of a scalar ALU instruction: 0x01 register form, 0x02 immediate form. -/
def aluMajor : BSrc → Nat
  | .sel _ => 0x01
  | .imm _ => 0x02

/-- A scalar ALU instruction: rd takes the result of a function of a and b (R250). -/
def aluStep (x : Ctx) (minor : Nat) (f : Alu) (g : Word → Word → Word) (s : State) : Out :=
  issue x (aluMajor f.b) minor f.wf s (fun s =>
    (s.modCtx x (fun c => c.setS f.rd.toNat (g (s.sel x f.sa) (s.bsrc x f.b)))).advance x)

/-- The shift amount b and 31. -/
def shamt (b : Word) : Nat := b.toNat % 32

/-- High 32 bits of the signed product. -/
def mulHigh (a b : Word) : Word := BitVec.ofInt 32 (a.toInt * b.toInt / 4294967296)

/-- High 32 bits of the unsigned product. -/
def mulHighU (a b : Word) : Word := BitVec.ofNat 32 (a.toNat * b.toNat / 4294967296)

/-- ADD: (a + b) mod 2^32. -/
def execAdd (x : Ctx) (f : Alu) (s : State) : Out := aluStep x 0x00 f (fun a b => a + b) s
/-- SUB: (a − b) mod 2^32. -/
def execSub (x : Ctx) (f : Alu) (s : State) : Out := aluStep x 0x01 f (fun a b => a - b) s
/-- MUL: low 32 bits of a × b. -/
def execMul (x : Ctx) (f : Alu) (s : State) : Out := aluStep x 0x02 f (fun a b => a * b) s
/-- MULHS: high 32 bits of signed a × b. -/
def execMulhs (x : Ctx) (f : Alu) (s : State) : Out := aluStep x 0x03 f mulHigh s
/-- MULHU: high 32 bits of unsigned a × b. -/
def execMulhu (x : Ctx) (f : Alu) (s : State) : Out := aluStep x 0x04 f mulHighU s
/-- AND: a and b. -/
def execAnd (x : Ctx) (f : Alu) (s : State) : Out := aluStep x 0x05 f (fun a b => a &&& b) s
/-- OR: a or b. -/
def execOr (x : Ctx) (f : Alu) (s : State) : Out := aluStep x 0x06 f (fun a b => a ||| b) s
/-- XOR: a xor b. -/
def execXor (x : Ctx) (f : Alu) (s : State) : Out := aluStep x 0x07 f (fun a b => a ^^^ b) s
/-- SHL: (a << (b and 31)) mod 2^32. -/
def execShl (x : Ctx) (f : Alu) (s : State) : Out := aluStep x 0x08 f (fun a b => a <<< shamt b) s
/-- SHR: unsigned a >> (b and 31). -/
def execShr (x : Ctx) (f : Alu) (s : State) : Out := aluStep x 0x09 f (fun a b => a >>> shamt b) s
/-- SRA: signed a >> (b and 31). -/
def execSra (x : Ctx) (f : Alu) (s : State) : Out := aluStep x 0x0A f (fun a b => a.sshiftRight (shamt b)) s
/-- MIN: signed minimum. -/
def execMin (x : Ctx) (f : Alu) (s : State) : Out := aluStep x 0x0B f (fun a b => if a.slt b then a else b) s
/-- MAX: signed maximum. -/
def execMax (x : Ctx) (f : Alu) (s : State) : Out := aluStep x 0x0C f (fun a b => if a.slt b then b else a) s
/-- MINU: unsigned minimum. -/
def execMinu (x : Ctx) (f : Alu) (s : State) : Out := aluStep x 0x0D f (fun a b => if a.ult b then a else b) s
/-- MAXU: unsigned maximum. -/
def execMaxu (x : Ctx) (f : Alu) (s : State) : Out := aluStep x 0x0E f (fun a b => if a.ult b then b else a) s
/-- SLT: 1 when signed a < b, else 0. -/
def execSlt (x : Ctx) (f : Alu) (s : State) : Out := aluStep x 0x0F f (fun a b => if a.slt b then 1 else 0) s
/-- SLTU: 1 when unsigned a < b, else 0. -/
def execSltu (x : Ctx) (f : Alu) (s : State) : Out := aluStep x 0x10 f (fun a b => if a.ult b then 1 else 0) s

/-- MOVI: the immediate. -/
def execMovi (x : Ctx) (rd : BitVec 5) (v : BitVec 32) (s : State) : Out :=
  issue x 0x02 0x20 true s (fun s => (s.modCtx x (fun c => c.setS rd.toNat v)).advance x)

/-! ### Address registers -/

/-- An address instruction: ad takes a value (Table, Address register encodings). -/
def addrStep (x : Ctx) (minor : Nat) (ok : Bool) (ad : BitVec 4) (g : State → DevAddr) (s : State) : Out :=
  issue x 0x03 minor ok s (fun s => (s.modCtx x (fun c => c.setA ad.toNat (g s))).advance x)

/-- MOVA: imm40. -/
def execMova (x : Ctx) (ad : BitVec 4) (v : BitVec 40) (s : State) : Out := addrStep x 0x00 true ad (fun _ => v) s
/-- ADDA: (as + sext32(sel)) mod 2^40. -/
def execAdda (x : Ctx) (ad : BitVec 4) (an : BitVec 4) (sel : BitVec 7) (s : State) : Out :=
  addrStep x 0x01 (selOk sel) ad (fun s => (s.ctx x).getA an.toNat + (s.sel x sel).signExtend 40) s
/-- ADDAI: (as + simm32) mod 2^40. -/
def execAddai (x : Ctx) (ad : BitVec 4) (an : BitVec 4) (v : BitVec 32) (s : State) : Out :=
  addrStep x 0x02 true ad (fun s => (s.ctx x).getA an.toNat + v.signExtend 40) s
/-- MADDA: (as + sext32(sel) × simm16) mod 2^40. -/
def execMadda (x : Ctx) (ad : BitVec 4) (an : BitVec 4) (sel : BitVec 7) (v : BitVec 16) (s : State) : Out :=
  addrStep x 0x03 (selOk sel) ad (fun s => (s.ctx x).getA an.toNat + (s.sel x sel).signExtend 40 * v.signExtend 40) s
/-- MOVAS: zero extension of the selected value. -/
def execMovas (x : Ctx) (ad : BitVec 4) (sel : BitVec 7) (s : State) : Out :=
  addrStep x 0x04 (selOk sel) ad (fun s => (s.sel x sel).setWidth 40) s

/-! ### Scalar memory (R251) -/

/-- SLD: rd = 32-bit word at An + sext(soff) in the core's own scratchpad; SE_ADDR elsewhere. -/
def execSld (x : Ctx) (rd : BitVec 5) (an : BitVec 4) (off : BitVec 16) (s : State) : Out :=
  issue x 0x05 0x00 true s (fun s =>
    match s.scalarAddr x an off 4 with
    | (_, some a) => (s.modCtx x (fun c => c.setS rd.toNat (BitVec.ofNat 32 (s.le a 4)))).advance x
    | (a, none) => s.weftFault x haltSeAddr seAddrInfo a)

/-- SST: 32-bit word at An + sext(soff) = selected value. -/
def execSst (x : Ctx) (sel : BitVec 7) (an : BitVec 4) (off : BitVec 16) (s : State) : Out :=
  issue x 0x05 0x01 (selOk sel) s (fun s =>
    match s.scalarAddr x an off 4 with
    | (_, some a) => (s.setLe a 4 (s.sel x sel).toNat).advance x
    | (a, none) => s.weftFault x haltSeAddr seAddrInfo a)

/-- LDA: ad = bits [39:0] of the 64-bit word at An + sext(soff). -/
def execLda (x : Ctx) (ad : BitVec 4) (an : BitVec 4) (off : BitVec 16) (s : State) : Out :=
  issue x 0x05 0x02 true s (fun s =>
    match s.scalarAddr x an off 8 with
    | (_, some a) => (s.modCtx x (fun c => c.setA ad.toNat (BitVec.ofNat 40 (s.le a 8)))).advance x
    | (a, none) => s.weftFault x haltSeAddr seAddrInfo a)

/-! ### Configuration writes (R93, R116, R252) -/

/-- A gang mode is requested: the change is pending until the engines have drained (R93). -/
def State.requestGang (s : State) (p mode : Nat) : State :=
  (s.setFld (Reg.CORE_GANG p) 0 2 mode).sticky (Reg.CORE_GANG p) 4

/-- ftz and stat_mode are written: ftz takes effect for the commands that issue after it, a change of stat_mode when the
earlier stores have completed (R116). -/
def State.writeNum (s : State) (p ftz mode : Nat) : State :=
  let s1 := s.setFld (Reg.CORE_NUMCFG p) 0 3 (ftz + mode * 2)
  s1.putBit (Reg.CORE_NUMCFG p) 9 ((s.core p).statMode != mode)

/-- CFG.GANG: writes CORE_GANG.mode; a register value with another bit set halts with ILLEGAL (R252). -/
def execCfgGang (x : Ctx) (v : GangArg) (s : State) : Out :=
  issue x 0x04 0x00 (v.wf && !isLoose x) s (fun s =>
    let n := match v with
      | .imm m => m.toNat
      | .sel r => (s.sel x r).toNat
    if 4 ≤ n then s.weftFault x haltIllegal (illegalInfo 0x04 0x00) 0
    else (s.requestGang x.core n).advance x)

/-- CFG.NUM: writes CORE_NUMCFG.ftz and stat_mode; a register value with another bit set, or stat_mode 0b11, halts with
ILLEGAL (R252). -/
def execCfgNum (x : Ctx) (v : NumArg) (s : State) : Out :=
  issue x 0x04 0x01 (v.wf && !isLoose x) s (fun s =>
    let n := match v with
      | .imm f m => (if f then 1 else 0) + m.toNat * 2
      | .sel r => (s.sel x r).toNat
    if 6 ≤ n then s.weftFault x haltIllegal (illegalInfo 0x04 0x01) 0
    else (s.writeNum x.core (n % 2) (n / 2)).advance x)

end Sys2Proof.Machine
end

