-- ==== Sys2Proof/Machine/WeftCode.lean ====
section
/-! DEFINITION. The 64-bit words of weft (09_weft_reference.md R241, R242 and its encoding tables): an encoder of every weft
instruction, and the decoder that the load checks use. A word is decoded only if every reserved field of it is 0: it must be
the word of the instruction read from it. -/

namespace Sys2Proof.Machine

/-- 1 for true. -/
def b2n (b : Bool) : Nat := if b then 1 else 0

/-- Major and minor opcode in place. -/
def opc (major minor : Nat) : Nat := major * 2 ^ 58 + minor * 2 ^ 52

/-- Word of a scalar ALU instruction. -/
def encAlu (minor : Nat) (f : Alu) : Nat :=
  match f.b with
  | .sel v => opc 0x01 minor + f.rd.toNat * 2 ^ 47 + f.sa.toNat * 2 ^ 40 + v.toNat * 2 ^ 33
  | .imm v => opc 0x02 minor + f.rd.toNat * 2 ^ 47 + f.sa.toNat * 2 ^ 40 + v.toNat

/-- Word of a vector elementwise instruction. -/
def encVop (minor : Nat) (f : Vop) : Nat :=
  opc 0x10 minor + f.dA.toNat * 2 ^ 48 + f.aA.toNat * 2 ^ 44 +
    (match f.b with
     | .arr a => a.toNat * 2 ^ 39
     | .sel v => 2 ^ 43 + v.toNat * 2 ^ 36) +
    b2n f.fp * 2 ^ 35 + b2n f.sat * 2 ^ 34 + f.n.toNat * 2 ^ 18

/-- A class operand of WCOMB in 7 bits. -/
def encClass (c : WClass) : Nat := b2n c.present * 64 + c.engine.toNat * 16 + c.tile.toNat

/-- The word of a weft instruction; none for a command that is no weft instruction. -/
def encodeWeft : Instr → Option Nat
  | .nop _ => some (opc 0x00 0x00)
  | .halt _ => some (opc 0x00 0x01)
  | .jump _ t => some (opc 0x00 0x02 + t.toNat)
  | .call _ t => some (opc 0x00 0x03 + t.toNat)
  | .ret _ => some (opc 0x00 0x04)
  | .loop _ (.imm n) e => some (opc 0x00 0x05 + n.toNat * 2 ^ 35 + e.toNat)
  | .loop _ (.sel v) e => some (opc 0x00 0x05 + 2 ^ 51 + v.toNat * 2 ^ 35 + e.toNat)
  | .waitpick _ (.imm n) => some (opc 0x00 0x06 + n.toNat)
  | .waitpick _ (.sel v) => some (opc 0x00 0x06 + 2 ^ 51 + v.toNat)
  | .sync _ b m => some (opc 0x00 0x07 + b.toNat * 2 ^ 8 + m.toNat)
  | .phaseHint _ l n => some (opc 0x00 0x08 + l.toNat * 2 ^ 12 + n.toNat)
  | .carryBegin _ r => some (opc 0x00 0x09 + r.toNat)
  | .carryEnd _ => some (opc 0x00 0x0A)
  | .add _ f => some (encAlu 0x00 f)
  | .sub _ f => some (encAlu 0x01 f)
  | .mul _ f => some (encAlu 0x02 f)
  | .mulhs _ f => some (encAlu 0x03 f)
  | .mulhu _ f => some (encAlu 0x04 f)
  | .and _ f => some (encAlu 0x05 f)
  | .or _ f => some (encAlu 0x06 f)
  | .xor _ f => some (encAlu 0x07 f)
  | .shl _ f => some (encAlu 0x08 f)
  | .shr _ f => some (encAlu 0x09 f)
  | .sra _ f => some (encAlu 0x0A f)
  | .min _ f => some (encAlu 0x0B f)
  | .max _ f => some (encAlu 0x0C f)
  | .minu _ f => some (encAlu 0x0D f)
  | .maxu _ f => some (encAlu 0x0E f)
  | .slt _ f => some (encAlu 0x0F f)
  | .sltu _ f => some (encAlu 0x10 f)
  | .movi _ rd v => some (opc 0x02 0x20 + rd.toNat * 2 ^ 47 + v.toNat)
  | .mova _ ad v => some (opc 0x03 0x00 + ad.toNat * 2 ^ 48 + v.toNat)
  | .adda _ ad an v => some (opc 0x03 0x01 + ad.toNat * 2 ^ 48 + an.toNat * 2 ^ 44 + v.toNat * 2 ^ 37)
  | .addai _ ad an v => some (opc 0x03 0x02 + ad.toNat * 2 ^ 48 + an.toNat * 2 ^ 44 + v.toNat)
  | .madda _ ad an v m => some (opc 0x03 0x03 + ad.toNat * 2 ^ 48 + an.toNat * 2 ^ 44 + v.toNat * 2 ^ 37 + m.toNat)
  | .movas _ ad v => some (opc 0x03 0x04 + ad.toNat * 2 ^ 48 + v.toNat * 2 ^ 37)
  | .cfgGang _ (.imm m) => some (opc 0x04 0x00 + m.toNat)
  | .cfgGang _ (.sel v) => some (opc 0x04 0x00 + 2 ^ 51 + v.toNat)
  | .cfgNum _ (.imm z m) => some (opc 0x04 0x01 + b2n z + m.toNat * 2)
  | .cfgNum _ (.sel v) => some (opc 0x04 0x01 + 2 ^ 51 + v.toNat)
  | .sld _ rd an o => some (opc 0x05 0x00 + rd.toNat * 2 ^ 47 + an.toNat * 2 ^ 43 + o.toNat)
  | .sst _ v an o => some (opc 0x05 0x01 + v.toNat * 2 ^ 45 + an.toNat * 2 ^ 41 + o.toNat)
  | .lda _ ad an o => some (opc 0x05 0x02 + ad.toNat * 2 ^ 48 + an.toNat * 2 ^ 44 + o.toNat)
  | .seXfer _ f => some (opc 0x08 0x00 + f.slot.toNat * 2 ^ 48 + f.idx.toNat * 2 ^ 36 + b2n f.ireg * 2 ^ 35 + b2n f.aen * 2 ^ 34 +
      f.an.toNat * 2 ^ 30 + f.o0.toNat * 2 ^ 18 + f.o1.toNat * 2 ^ 14 + f.o2.toNat * 2 ^ 10 + b2n f.oen * 2 ^ 9 +
      f.osr.toNat * 2 ^ 4 + f.sp.toNat)
  | .seInv _ .all => some (opc 0x08 0x01 + 2 ^ 16)
  | .seInv _ (.reg r) => some (opc 0x08 0x01 + 2 ^ 15 + r.toNat)
  | .seInv _ (.idx i) => some (opc 0x08 0x01 + i.toNat)
  | .mpass _ f => some (opc 0x0C 0x00 + f.target.toNat * 2 ^ 49 + f.pair.toNat * 2 ^ 46 + f.mcount.toNat * 2 ^ 37 +
      b2n f.new * 2 ^ 36 + f.t0.toNat * 2 ^ 32 + b2n f.acc * 2 ^ 31 + f.shf.toNat * 2 ^ 23 + f.rsel.toNat * 2 ^ 17 +
      f.aslot.toNat * 2 ^ 13 + f.wslot.toNat * 2 ^ 9)
  | .vadd _ f => some (encVop 0x00 f)
  | .vsub _ f => some (encVop 0x01 f)
  | .vmul _ f => some (encVop 0x02 f)
  | .vmin _ f => some (encVop 0x03 f)
  | .vmax _ f => some (encVop 0x04 f)
  | .vand _ f => some (encVop 0x05 f)
  | .vor _ f => some (encVop 0x06 f)
  | .vxor _ f => some (encVop 0x07 f)
  | .vshl _ f => some (encVop 0x08 f)
  | .vsra _ f => some (encVop 0x09 f)
  | .vcvti _ f => some (encVop 0x0A f)
  | .vcvtf _ f => some (encVop 0x0B f)
  | .vcopy _ f => some (encVop 0x0C f)
  | .req _ f => some (opc 0x11 0x00 + b2n f.accF * 2 ^ 51 + f.tgt.toNat * 2 ^ 48 + b2n f.chan * 2 ^ 47 + f.cbase.toNat * 2 ^ 35 +
      f.rnd.toNat * 2 ^ 33 + b2n f.sat * 2 ^ 32 + f.stat.toNat * 2 ^ 29 + f.maxabs.toNat * 2 ^ 26 + b2n f.srcMem * 2 ^ 25 +
      f.src.toNat * 2 ^ 19 + f.rows.toNat * 2 ^ 10 + f.oslot.toNat * 2 ^ 6 + f.pA.toNat * 2 ^ 2)
  | .wcomb _ f => some (opc 0x11 0x01 + encClass f.c0 * 2 ^ 45 + encClass f.c8 * 2 ^ 38 + encClass f.c16 * 2 ^ 31 +
      f.sh.toNat * 2 ^ 26 + b2n f.sat * 2 ^ 25 + f.dA.toNat * 2 ^ 21 + f.rows.toNat * 2 ^ 12)
  | .pool _ f => some (opc 0x12 0x00 + f.islot.toNat * 2 ^ 48 + f.dA.toNat * 2 ^ 44 + b2n f.avg * 2 ^ 43 + f.divMode.toNat * 2 ^ 41 +
      b2n f.glob * 2 ^ 40 + f.ofmt.toNat * 2 ^ 38 + b2n f.sat * 2 ^ 37 + f.fdiv.toNat * 2 ^ 21)
  | .dwconv _ f => some (opc 0x12 0x01 + f.islot.toNat * 2 ^ 48 + f.dA.toNat * 2 ^ 44 + f.wA.toNat * 2 ^ 40 + f.wfmt.toNat * 2 ^ 38)
  | .boxdecH _ p c f n => some (opc 0x13 0x00 + p.toNat * 2 ^ 48 + b2n c * 2 ^ 47 + f.toNat * 2 ^ 20 + n.toNat)
  | .boxdecE _ p f n => some (opc 0x13 0x01 + p.toNat * 2 ^ 48 + f.toNat * 2 ^ 20 + n.toNat)
  | .nmsSort _ p => some (opc 0x13 0x02 + p.toNat * 2 ^ 48)
  | .nmsSup _ p i j => some (opc 0x13 0x03 + p.toNat * 2 ^ 48 + i.toNat * 2 ^ 10 + j.toNat)
  | .nmsOut _ p => some (opc 0x13 0x04 + p.toNat * 2 ^ 48)
  | .crop _ p f n => some (opc 0x13 0x05 + p.toNat * 2 ^ 48 + f.toNat * 2 ^ 42 + n.toNat * 2 ^ 36)
  | .emitDet _ f => some (opc 0x14 0x00 + f.pA.toNat * 2 ^ 48 + f.q.toNat * 2 ^ 45 + f.network.toNat * 2 ^ 16 + f.output.toNat)
  | .emitRec _ l q n => some (opc 0x14 0x01 + l.toNat * 2 ^ 48 + q.toNat * 2 ^ 45 + n.toNat * 2 ^ 32)
  | .statOut _ k d => some (opc 0x18 0x00 + k.toNat * 2 ^ 50 + d.toNat * 2 ^ 44)
  | .maxabsOut _ d => some (opc 0x18 0x01 + d.toNat * 2 ^ 44)
  | .vmaxabs _ f => some (opc 0x18 0x02 + f.rd.toNat * 2 ^ 47 + b2n f.fp * 2 ^ 46 + b2n f.srcMem * 2 ^ 45 + f.src.toNat * 2 ^ 39 +
      f.rows.toNat * 2 ^ 30)
  | _ => none

/-- Bits [lo + n − 1 : lo] of a word as a bit vector. -/
def bf (w lo n : Nat) : BitVec n := BitVec.ofNat n (field w lo n)

/-- The scalar ALU fields of a word of major 0x01 or 0x02. -/
def candAlu (imm : Bool) (w : Nat) : Alu := ⟨bf w 47 5, bf w 40 7, if imm then .imm (bf w 0 32) else .sel (bf w 33 7)⟩

/-- The vector elementwise fields of a word. -/
def candVop (w : Nat) : Vop :=
  ⟨bf w 48 4, bf w 44 4, if nbit w 43 then .sel (bf w 36 7) else .arr (bf w 39 4), nbit w 35, nbit w 34, bf w 18 16⟩

/-- A class operand from 7 bits at lo. -/
def candClass (w lo : Nat) : WClass := ⟨nbit w (lo + 6), bf w (lo + 4) 2, bf w lo 4⟩

/-- The scalar ALU operations by minor opcode. -/
def candScalar (x : Ctx) (minor : Nat) (f : Alu) : Option Instr :=
  match minor with
  | 0x00 => some (.add x f)
  | 0x01 => some (.sub x f)
  | 0x02 => some (.mul x f)
  | 0x03 => some (.mulhs x f)
  | 0x04 => some (.mulhu x f)
  | 0x05 => some (.and x f)
  | 0x06 => some (.or x f)
  | 0x07 => some (.xor x f)
  | 0x08 => some (.shl x f)
  | 0x09 => some (.shr x f)
  | 0x0A => some (.sra x f)
  | 0x0B => some (.min x f)
  | 0x0C => some (.max x f)
  | 0x0D => some (.minu x f)
  | 0x0E => some (.maxu x f)
  | 0x0F => some (.slt x f)
  | 0x10 => some (.sltu x f)
  | _ => none

/-- Control instructions by minor opcode. -/
def candControl (x : Ctx) (minor w : Nat) : Option Instr :=
  match minor with
  | 0x00 => some (.nop x)
  | 0x01 => some (.halt x)
  | 0x02 => some (.jump x (bf w 0 20))
  | 0x03 => some (.call x (bf w 0 20))
  | 0x04 => some (.ret x)
  | 0x05 => some (.loop x (if nbit w 51 then .sel (bf w 35 7) else .imm (bf w 35 16)) (bf w 0 20))
  | 0x06 => some (.waitpick x (if nbit w 51 then .sel (bf w 0 7) else .imm (bf w 0 20)))
  | 0x07 => some (.sync x (bf w 8 3) (bf w 0 8))
  | 0x08 => some (.phaseHint x (bf w 12 2) (bf w 0 11))
  | 0x09 => some (.carryBegin x (bf w 0 12))
  | 0x0A => some (.carryEnd x)
  | _ => none

/-- Vector elementwise instructions by minor opcode. -/
def candVector (x : Ctx) (minor : Nat) (f : Vop) : Option Instr :=
  match minor with
  | 0x00 => some (.vadd x f)
  | 0x01 => some (.vsub x f)
  | 0x02 => some (.vmul x f)
  | 0x03 => some (.vmin x f)
  | 0x04 => some (.vmax x f)
  | 0x05 => some (.vand x f)
  | 0x06 => some (.vor x f)
  | 0x07 => some (.vxor x f)
  | 0x08 => some (.vshl x f)
  | 0x09 => some (.vsra x f)
  | 0x0A => some (.vcvti x f)
  | 0x0B => some (.vcvtf x f)
  | 0x0C => some (.vcopy x f)
  | _ => none

/-- The instruction that the opcodes and fields of a word name, whatever its reserved fields hold. -/
def candWeft (x : Ctx) (w : Nat) : Option Instr :=
  let minor := field w 52 6
  match field w 58 6, minor with
  | 0x00, m => candControl x m w
  | 0x01, m => candScalar x m (candAlu false w)
  | 0x02, 0x20 => some (.movi x (bf w 47 5) (bf w 0 32))
  | 0x02, m => candScalar x m (candAlu true w)
  | 0x03, 0x00 => some (.mova x (bf w 48 4) (bf w 0 40))
  | 0x03, 0x01 => some (.adda x (bf w 48 4) (bf w 44 4) (bf w 37 7))
  | 0x03, 0x02 => some (.addai x (bf w 48 4) (bf w 44 4) (bf w 0 32))
  | 0x03, 0x03 => some (.madda x (bf w 48 4) (bf w 44 4) (bf w 37 7) (bf w 0 16))
  | 0x03, 0x04 => some (.movas x (bf w 48 4) (bf w 37 7))
  | 0x04, 0x00 => some (.cfgGang x (if nbit w 51 then .sel (bf w 0 7) else .imm (bf w 0 2)))
  | 0x04, 0x01 => some (.cfgNum x (if nbit w 51 then .sel (bf w 0 7) else .imm (nbit w 0) (bf w 1 2)))
  | 0x05, 0x00 => some (.sld x (bf w 47 5) (bf w 43 4) (bf w 0 16))
  | 0x05, 0x01 => some (.sst x (bf w 45 7) (bf w 41 4) (bf w 0 16))
  | 0x05, 0x02 => some (.lda x (bf w 48 4) (bf w 44 4) (bf w 0 16))
  | 0x08, 0x00 => some (.seXfer x ⟨bf w 48 4, nbit w 35, bf w 36 12, nbit w 34, bf w 30 4, bf w 18 12, bf w 14 4, bf w 10 4, nbit w 9,
      bf w 4 5, bf w 0 4⟩)
  | 0x08, 0x01 => some (.seInv x (if nbit w 16 then .all else if nbit w 15 then .reg (bf w 0 5) else .idx (bf w 0 12)))
  | 0x0C, 0x00 => some (.mpass x ⟨bf w 49 3, bf w 46 3, bf w 37 9, nbit w 36, bf w 32 4, nbit w 31, bf w 23 8, bf w 17 6, bf w 13 4,
      bf w 9 4⟩)
  | 0x10, m => candVector x m (candVop w)
  | 0x11, 0x00 => some (.req x ⟨nbit w 51, bf w 48 3, nbit w 47, bf w 35 12, bf w 33 2, nbit w 32, bf w 29 3, bf w 26 3, nbit w 25,
      bf w 19 6, bf w 10 9, bf w 6 4, bf w 2 4⟩)
  | 0x11, 0x01 => some (.wcomb x ⟨candClass w 45, candClass w 38, candClass w 31, bf w 26 5, nbit w 25, bf w 21 4, bf w 12 9⟩)
  | 0x12, 0x00 => some (.pool x ⟨bf w 48 4, bf w 44 4, nbit w 43, bf w 41 2, nbit w 40, bf w 38 2, nbit w 37, bf w 21 16⟩)
  | 0x12, 0x01 => some (.dwconv x ⟨bf w 48 4, bf w 44 4, bf w 40 4, bf w 38 2⟩)
  | 0x13, 0x00 => some (.boxdecH x (bf w 48 4) (nbit w 47) (bf w 20 20) (bf w 0 16))
  | 0x13, 0x01 => some (.boxdecE x (bf w 48 4) (bf w 20 20) (bf w 0 16))
  | 0x13, 0x02 => some (.nmsSort x (bf w 48 4))
  | 0x13, 0x03 => some (.nmsSup x (bf w 48 4) (bf w 10 10) (bf w 0 10))
  | 0x13, 0x04 => some (.nmsOut x (bf w 48 4))
  | 0x13, 0x05 => some (.crop x (bf w 48 4) (bf w 42 6) (bf w 36 6))
  | 0x14, 0x00 => some (.emitDet x ⟨bf w 48 4, bf w 45 3, bf w 16 16, bf w 0 16⟩)
  | 0x14, 0x01 => some (.emitRec x (bf w 48 4) (bf w 45 3) (bf w 32 10))
  | 0x18, 0x00 => some (.statOut x (bf w 50 2) (bf w 44 4))
  | 0x18, 0x01 => some (.maxabsOut x (bf w 44 4))
  | 0x18, 0x02 => some (.vmaxabs x ⟨bf w 47 5, nbit w 46, nbit w 45, bf w 39 6, bf w 30 9⟩)
  | _, _ => none

/-- SE.INV with all = 1, or with ireg = 1, does not use the index bits that its form leaves over (Table, Stream encodings). -/
def normWeft (w : Nat) : Nat :=
  if field w 52 12 = 0x08 * 64 + 0x01 then
    if nbit w 16 then w - field w 15 1 * 2 ^ 15 - field w 0 12
    else if nbit w 15 then w - field w 5 7 * 2 ^ 5
    else w
  else w

/-- The weft instruction that a context reads from a 64-bit word; none for an ENCODING error (R242). -/
def decodeWeft (x : Ctx) (w : Nat) : Option Instr :=
  match candWeft x w with
  | some i => if i.wf && encodeWeft i == some (normWeft w) then some i else none
  | none => none

/-- Selectors of an instruction that names a parameter register above P31, absent from weft 2.x (R266). -/
def highSel (v : BitVec 7) : Bool := decide (0x60 ≤ v.toNat)

/-- An instruction that weft 2.x holds (Table, Weft 2.x differences); n and tick bound its WAITPICK. -/
def inWeft2 (i : Instr) : Bool :=
  let alu := fun (f : Alu) => !highSel f.sa && (match f.b with | .sel v => !highSel v | .imm _ => true)
  let vop := fun (f : Vop) => match f.b with | .sel v => !highSel v | .arr _ => true
  match i with
  | .carryBegin _ _ | .carryEnd _ | .wcomb _ _ | .phaseHint _ _ _ => false
  | .waitpick _ (.sel _) => false
  | .waitpick _ (.imm n) => decide (n.toNat ≤ 65535)
  | .loop _ (.sel v) _ => !highSel v
  | .add _ f | .sub _ f | .mul _ f | .mulhs _ f | .mulhu _ f | .and _ f | .or _ f | .xor _ f | .shl _ f | .shr _ f | .sra _ f
  | .min _ f | .max _ f | .minu _ f | .maxu _ f | .slt _ f | .sltu _ f => alu f
  | .vadd _ f | .vsub _ f | .vmul _ f | .vmin _ f | .vmax _ f | .vand _ f | .vor _ f | .vxor _ f | .vshl _ f | .vsra _ f
  | .vcvti _ f | .vcvtf _ f | .vcopy _ f => vop f
  | .adda _ _ _ v | .madda _ _ _ v _ | .movas _ _ v | .sst _ v _ _ => !highSel v
  | .cfgGang _ (.imm m) => decide (m.toNat ≤ 1)
  | .cfgGang _ (.sel v) => !highSel v
  | .cfgNum _ (.imm _ m) => decide (m.toNat ≤ 1)
  | .cfgNum _ (.sel v) => !highSel v
  | .mpass _ f => f.pair.toNat != 2 && f.pair.toNat != 3 && decide (f.mcount.toNat < 256)
  | .req _ f => f.rnd.toNat == 0
  | _ => true

/-- The stream slots that an instruction names: SE.XFER starts a transfer in one, engine commands take from or store to
others (R253, R277). -/
def slotsOf : Instr → List Nat
  | .seXfer _ f => [f.slot.toNat]
  | .mpass _ f => f.aslot.toNat :: (if f.new then [f.wslot.toNat] else [])
  | .req _ f => [f.oslot.toNat]
  | .pool _ f => [f.islot.toNat]
  | .dwconv _ f => [f.islot.toNat]
  | _ => []

end Sys2Proof.Machine
end

