-- ==== Sys2Proof/Machine/Threader.lean ====
section
/-! DEFINITION. The threader's checks of a role program (08_core_programming_model.md R237 to R240, R523, Table, Threader checks;
R47, R50, R60, R90, R91, R157, R177, R184, R216, R225 to R227, R247, R250, R251, R255, R263, R265). The path of a role through one
tick is followed from its initial parameters, and each check reads the trace of it. Waits that need the schedule of an engine, the
bounds of pushes and the size of native code are not computed here (assumption 13). -/

namespace Sys2Proof.Machine

/-- What a failed check reports (Table, Threader report). -/
structure ThFail where
  check : Nat
  index : Nat
  pick : Nat
  engine : Nat
  needed : Nat
  allowed : Nat
  detail : Nat
  deriving DecidableEq, Repr

/-- The weft index and pick of a report that has none. -/
def noIndex : Nat := 0xFFFFF

/-- A failed check at a weft index. -/
def failAt (check index : Nat) : Option ThFail := some ⟨check, index, noIndex, 7, 0, 0, 0⟩

/-- A failed check that found more than its limit. -/
def failOver (check index pick engine needed allowed detail : Nat) : Option ThFail := some ⟨check, index, pick, engine, needed, allowed, detail⟩

/-! ### Checks of single instructions -/

/-- The targets of an instruction lie below the program's length. -/
def targetsOk (n : Nat) : Instr → Bool
  | .jump _ t => decide (t.toNat < n)
  | .call _ t => decide (t.toNat < n)
  | .loop _ _ e => decide (e.toNat < n)
  | _ => true

/-- The weft index of the first ENCODING error of a program. -/
def encodingError (weft2 : Bool) (ws : List Nat) : Option Nat :=
  ((ws.zipIdx).find? (fun (w, _) => match decodeWeft (.woven 0) w with
    | some i => !(targetsOk ws.length i && (!weft2 || inWeft2 i))
    | none => true)).map (fun e => e.2)

/-- The first SYNC whose mask lacks the issuing core's own bit: its weft index and barrier (Table, Control encodings). -/
def syncError (l : Nat) (ws : List Nat) : Option (Nat × Nat) :=
  (ws.zipIdx).findSome? (fun (w, i) => match decodeWeft (.woven 0) w with
    | some (.sync _ b m) => if m.toNat.testBit (l % 8) then none else some (i, b.toNat)
    | _ => none)

/-- A tile range that ends past tile 15. -/
def pastTiles (t rows : Nat) : Bool := decide (16 < t + (rows + 31) / 32)

/-- An operand of an instruction that check IMMEDIATE rejects by itself: a reserved rounding mode, an alignment above 24, a nonzero shf on
a floating pair, or a tile range past tile 15 (R83, R87, R143, R255, R257). -/
def badImmediate : Instr → Bool
  | .mpass _ f => pastTiles f.t0.toNat (f.mcount.toNat + 1) || (decide (f.pair.toNat ≤ 1) && decide (24 < f.shf.toNat)) ||
      (decide (3 ≤ f.pair.toNat) && f.shf.toNat != 0)
  | .req _ f => f.rnd.toNat == 3 || (!f.srcMem && pastTiles (f.src.toNat % 16) (f.rows.toNat + 1))
  | .wcomb _ f => [f.c0, f.c8, f.c16].any (fun (c : WClass) => c.present && pastTiles c.tile.toNat (f.rows.toNat + 1))
  | .vmaxabs _ f => !f.srcMem && pastTiles (f.src.toNat % 16) (f.rows.toNat + 1)
  | _ => false

/-- The weft index of the first operand that check IMMEDIATE rejects by itself. -/
def immediateError (ws : List Nat) : Option Nat :=
  ((ws.zipIdx).find? (fun (w, _) => match decodeWeft (.woven 0) w with
    | some i => badImmediate i
    | none => false)).map (fun e => e.2)

/-! ### STRUCTURE of the program text (R226) -/

/-- The loops of a program: index of the LOOP and of the last body instruction. -/
def loopsOf (ws : List Nat) : List (Nat × Nat) :=
  (ws.zipIdx).filterMap (fun (w, i) => match decodeWeft (.woven 0) w with
    | some (.loop _ _ e) => some (i, e.toNat)
    | _ => none)

/-- Index i lies in the body of a loop. -/
def inBody (l : Nat × Nat) (i : Nat) : Bool := decide (l.1 < i) && decide (i ≤ l.2)

/-- The first instruction that breaks R226 in the program text: a loop end before its LOOP, bodies that overlap without nesting, a fifth
nested loop, or a JUMP into or out of a body. -/
def structureError (ws : List Nat) : Option ThFail :=
  let ls := loopsOf ws
  let around := fun (i : Nat) => (ls.filter (fun m => inBody m i)).length
  (ws.zipIdx).findSome? (fun (w, i) => match decodeWeft (.woven 0) w with
    | some (.loop _ _ e) =>
      if e.toNat < i ∨ ls.any (fun m => inBody m i && decide (m.2 < e.toNat)) = true then failAt 3 i
      else if 4 ≤ around i then failOver 3 i noIndex 7 (around i + 1) 4 0
      else none
    | some (.jump _ t) => if ls.any (fun l => inBody l i != inBody l t.toNat) then failAt 3 i else none
    | _ => none)

/-! ### Registers that an instruction reads and writes: Sn is n, An is 32 + n -/

/-- The registers that a selector names. -/
def selRegs (v : BitVec 7) : List Nat :=
  if v.toNat < 0x20 then [v.toNat] else if v.toNat < 0x30 then [32 + (v.toNat - 0x20)] else []

/-- The register that holds the source of REQ or VMAXABS in scratchpad. -/
def srcReg (mem : Bool) (src : BitVec 6) : List Nat := if mem then [32 + src.toNat % 16] else []

/-- The scalar ALU instructions and what they compute (Table, Scalar ALU operations). -/
def aluOf : Instr → Option (Alu × (Word → Word → Word))
  | .add _ f => some (f, fun a b => a + b)
  | .sub _ f => some (f, fun a b => a - b)
  | .mul _ f => some (f, fun a b => a * b)
  | .mulhs _ f => some (f, mulHigh)
  | .mulhu _ f => some (f, mulHighU)
  | .and _ f => some (f, fun a b => a &&& b)
  | .or _ f => some (f, fun a b => a ||| b)
  | .xor _ f => some (f, fun a b => a ^^^ b)
  | .shl _ f => some (f, fun a b => a <<< shamt b)
  | .shr _ f => some (f, fun a b => a >>> shamt b)
  | .sra _ f => some (f, fun a b => a.sshiftRight (shamt b))
  | .min _ f => some (f, fun a b => if a.slt b then a else b)
  | .max _ f => some (f, fun a b => if a.slt b then b else a)
  | .minu _ f => some (f, fun a b => if a.ult b then a else b)
  | .maxu _ f => some (f, fun a b => if a.ult b then b else a)
  | .slt _ f => some (f, fun a b => if a.slt b then 1 else 0)
  | .sltu _ f => some (f, fun a b => if a.ult b then 1 else 0)
  | _ => none

/-- The vector elementwise instructions. -/
def vopOf : Instr → Option Vop
  | .vadd _ f | .vsub _ f | .vmul _ f | .vmin _ f | .vmax _ f | .vand _ f | .vor _ f | .vxor _ f | .vshl _ f | .vsra _ f
  | .vcvti _ f | .vcvtf _ f | .vcopy _ f => some f
  | _ => none

/-- The registers that an instruction reads; d is the descriptor that SE.XFER names, where it is known. -/
def regsRead (d : Option Desc) (i : Instr) : List Nat :=
  match aluOf i, vopOf i with
  | some (f, _), _ => selRegs f.sa ++ (match f.b with | .sel v => selRegs v | .imm _ => [])
  | none, some f => [32 + f.dA.toNat, 32 + f.aA.toNat] ++ (match f.b with | .arr a => [32 + a.toNat] | .sel v => selRegs v)
  | none, none =>
    match i with
    | .loop _ (.sel v) _ => selRegs v
    | .waitpick _ (.sel v) => selRegs v
    | .adda _ _ an v => (32 + an.toNat) :: selRegs v
    | .addai _ _ an _ => [32 + an.toNat]
    | .madda _ _ an v _ => (32 + an.toNat) :: selRegs v
    | .movas _ _ v => selRegs v
    | .cfgGang _ (.sel v) => selRegs v
    | .cfgNum _ (.sel v) => selRegs v
    | .sld _ _ an _ => [32 + an.toNat]
    | .sst _ v an _ => (32 + an.toNat) :: selRegs v
    | .lda _ _ an _ => [32 + an.toNat]
    | .seXfer _ f => (if f.ireg then [f.idx.toNat % 32] else []) ++ (if f.aen then [32 + f.an.toNat] else []) ++
        (if f.oen then [f.osr.toNat] else []) ++
        (if (match d with | some e => e.kind == 3 || e.kind == 4 | none => f.sp.toNat != 0) then [32 + f.sp.toNat] else [])
    | .seInv _ (.reg r) => [r.toNat]
    | .mpass _ f => if f.rsel.toNat < 32 then [f.rsel.toNat] else []
    | .req _ f => (32 + f.pA.toNat) :: srcReg f.srcMem f.src
    | .wcomb _ f => [32 + f.dA.toNat]
    | .pool _ f => [32 + f.dA.toNat]
    | .dwconv _ f => [32 + f.dA.toNat, 32 + f.wA.toNat]
    | .boxdecH _ p _ _ _ => [32 + p.toNat]
    | .boxdecE _ p _ _ => [32 + p.toNat]
    | .nmsSort _ p => [32 + p.toNat]
    | .nmsSup _ p _ _ => [32 + p.toNat]
    | .nmsOut _ p => [32 + p.toNat]
    | .crop _ p _ _ => [32 + p.toNat]
    | .emitDet _ f => [32 + f.pA.toNat]
    | .emitRec _ l _ _ => [32 + l.toNat]
    | .statOut _ _ d => [32 + d.toNat]
    | .maxabsOut _ d => [32 + d.toNat]
    | .vmaxabs _ f => srcReg f.srcMem f.src
    | _ => []

/-- The cycles of the vector engine that a command costs whose fields are all known (Table, Weft cycle costs; R216): s is the shape of
the stream that POOL or DWCONV consumes. Commands that take their extent from scratchpad are charged the part their fields give. -/
def veCost (s : Option Desc) (i : Instr) : Nat :=
  match vopOf i with
  | some f => (f.n.toNat + 1 + 63) / 64 + 6
  | none =>
    match i with
    | .sld _ _ _ _ => 2
    | .sst _ _ _ _ => 2
    | .lda _ _ _ _ => 2
    | .req _ f => if f.srcMem then (f.rows.toNat + 2) / 2 + 10 else f.rows.toNat + 1 + 10
    | .wcomb _ f => f.rows.toNat + 1 + 8
    | .pool _ _ => (match s with | some d => (d.cnt.getD 0 0 + 1 + 63) / 64 * d.rowsN | none => 0) + 16
    | .dwconv _ _ => (match s with | some d => (d.cnt.getD 0 0 + 1 + 63) / 64 * d.rowsN | none => 0) + 16
    | .boxdecH _ _ _ _ _ => 12
    | .boxdecE _ _ _ _ => 12
    | .nmsSup _ _ _ _ => 8
    | .nmsOut _ _ => 8
    | .crop _ _ _ n => 32 + 32 * (n.toNat + 1)
    | .emitDet _ _ => 8
    | .emitRec _ _ _ n => 8 + (n.toNat + 1)
    | .vmaxabs _ f => if f.srcMem then (f.rows.toNat + 2) / 2 + 6 else f.rows.toNat + 1 + 6
    | _ => 0

/-- The registers that an instruction writes, each with the latency of the result (R250, R251, R264). -/
def regsWritten (i : Instr) : List (Nat × Nat) :=
  match aluOf i with
  | some (f, _) => [(f.rd.toNat, match i with | .mul _ _ | .mulhs _ _ | .mulhu _ _ => 3 | _ => 1)]
  | none =>
    match i with
    | .movi _ rd _ => [(rd.toNat, 1)]
    | .mova _ ad _ => [(32 + ad.toNat, 1)]
    | .adda _ ad _ _ => [(32 + ad.toNat, 1)]
    | .addai _ ad _ _ => [(32 + ad.toNat, 1)]
    | .madda _ ad _ _ _ => [(32 + ad.toNat, 3)]
    | .movas _ ad _ => [(32 + ad.toNat, 1)]
    | .sld _ rd _ _ => [(rd.toNat, 6)]
    | .lda _ ad _ _ => [(32 + ad.toNat, 6)]
    | .vmaxabs _ f => [(f.rd.toNat, veCost none i + 2)]
    | _ => []

/-! ### The path of a role through one tick (R224 to R226, R238, R523) -/

/-- One executed instruction: its weft index, the pick section it belongs to, the operand of a WAITPICK, the cycle of the section at which
the sequencer issues it, the call depth and the loop counters L0 to L3. -/
structure ThStep where
  idx : Nat
  i : Instr
  sect : Nat
  operand : Nat
  cycle : Nat
  sp : Nat
  loops : List Nat
  deriving DecidableEq, Repr

/-- The sequencer as the threader follows it: loops and calls, register values that derive from immediates and parameters alone, the cycle
at which each register's value is ready, the section and its next cycle, and the trace, latest first. -/
structure ThWalk where
  c : Context
  s : Tbl (Option Word)
  a : Tbl (Option DevAddr)
  ready : Tbl Nat
  sect : Nat
  cycle : Nat
  trace : List ThStep
  deriving DecidableEq, Repr

/-- The start of a tick: no register value is known. -/
def ThWalk.init : ThWalk := ⟨Context.init, [], [], [], 0, 0, []⟩

/-- The value that a selector names, where it derives from immediates and parameters (R523). -/
def ThWalk.sel (w : ThWalk) (ps : List Nat) (v : BitVec 7) : Option Word :=
  if v.toNat < 0x20 then Tbl.get (fun _ => none) w.s v.toNat
  else if v.toNat < 0x30 then (Tbl.get (fun _ => none) w.a (v.toNat - 0x20)).map (fun x => x.setWidth 32)
  else if v.toNat < 0x40 then none
  else some (BitVec.ofNat 32 (ps.getD (v.toNat - 0x40) 0))

/-- The walk with scalar register n at a known or unknown value. -/
def ThWalk.putS (w : ThWalk) (n : Nat) (v : Option Word) : ThWalk := { w with s := Tbl.set (fun _ => none) w.s n v }

/-- The walk with address register n at a known or unknown value. -/
def ThWalk.putA (w : ThWalk) (n : Nat) (v : Option DevAddr) : ThWalk := { w with a := Tbl.set (fun _ => none) w.a n v }

/-- The address register n, where it is known. -/
def ThWalk.getA (w : ThWalk) (n : Nat) : Option DevAddr := Tbl.get (fun _ => none) w.a n

/-- The effect of an instruction on the register values that the threader follows. -/
def ThWalk.values (w : ThWalk) (ps : List Nat) (i : Instr) : ThWalk :=
  match aluOf i with
  | some (f, g) =>
    let b := match f.b with | .sel v => w.sel ps v | .imm v => some v
    w.putS f.rd.toNat ((w.sel ps f.sa).bind (fun x => b.map (fun y => g x y)))
  | none =>
    match i with
    | .movi _ rd v => w.putS rd.toNat (some v)
    | .mova _ ad v => w.putA ad.toNat (some v)
    | .adda _ ad an v => w.putA ad.toNat ((w.getA an.toNat).bind (fun x => (w.sel ps v).map (fun y => x + y.signExtend 40)))
    | .addai _ ad an v => w.putA ad.toNat ((w.getA an.toNat).map (fun x => x + v.signExtend 40))
    | .madda _ ad an v m => w.putA ad.toNat ((w.getA an.toNat).bind (fun x => (w.sel ps v).map (fun y => x + y.signExtend 40 * m.signExtend 40)))
    | .movas _ ad v => w.putA ad.toNat ((w.sel ps v).map (fun x => x.setWidth 40))
    | .sld _ rd _ _ => w.putS rd.toNat none
    | .lda _ ad _ _ => w.putA ad.toNat none
    | .vmaxabs _ f => w.putS f.rd.toNat none
    | _ => w

/-- The walk goes on at pc after the instruction at its index (R226). -/
def ThWalk.goto (w : ThWalk) (pc : Nat) : ThWalk := { w with c := w.c.after w.c.pc pc }

/-- How the walk goes on after one instruction: at another index, at the end of the tick, or not at all. -/
inductive ThGo where
  | on (w : ThWalk)
  | stop (w : ThWalk)
  | bad (f : ThFail)
  deriving DecidableEq, Repr

/-- The count of LOOP, where it is known (R523). -/
def ThWalk.count (w : ThWalk) (ps : List Nat) : LoopCount → Option Nat
  | .imm n => some n.toNat
  | .sel v => (w.sel ps v).map (fun x => x.toNat)

/-- The operand of WAITPICK, where it is known (R523). -/
def ThWalk.pickArg (w : ThWalk) (ps : List Nat) : PickArg → Option Nat
  | .imm n => some n.toNat
  | .sel v => (w.sel ps v).map (fun x => x.toNat)

/-- One instruction of the path: t is T. A failed STRUCTURE or PICK_ORDER check ends it. -/
def ThWalk.step (w : ThWalk) (ps : List Nat) (t : Nat) (st : ThStep) : ThGo :=
  let c := w.c
  let pc := c.pc
  let w1 := { w with trace := st :: w.trace }
  match st.i with
  | .halt _ => .stop w1
  | .jump _ x => .on (w1.goto x.toNat)
  | .call _ x =>
    if c.sp = 4 then .bad ⟨3, pc, w.sect, 7, 5, 4, 0⟩
    else .on ({ w1 with c := { c with stack := Tbl.set (fun _ => 0) c.stack c.sp (pc + 1), sp := c.sp + 1 } }.goto x.toNat)
  | .ret _ =>
    if c.sp = 0 ∨ (0 < c.depth ∧ Tbl.get (fun _ => 0) c.lframe (c.depth - 1) = c.sp) then .bad ⟨3, pc, w.sect, 7, 0, 0, 0⟩
    else .on ({ w1 with c := { c with sp := c.sp - 1 } }.goto (Tbl.get (fun _ => 0) c.stack (c.sp - 1)))
  | .loop _ n e =>
    if c.depth = 4 then .bad ⟨3, pc, w.sect, 7, 5, 4, 0⟩
    else match w.count ps n with
      | none => .bad ⟨3, pc, w.sect, 7, 0, 0, 0⟩
      | some 0 => .on (w1.goto (e.toNat + 1))
      | some k =>
        .on ({ w1 with c := { c with lc := Tbl.set (fun _ => 0) c.lc c.depth (BitVec.ofNat 32 k),
                                     lstart := Tbl.set (fun _ => 0) c.lstart c.depth (pc + 1),
                                     lend := Tbl.set (fun _ => 0) c.lend c.depth e.toNat,
                                     lframe := Tbl.set (fun _ => 0) c.lframe c.depth c.sp, depth := c.depth + 1 } }.goto (pc + 1))
  | .waitpick _ n =>
    (match w.pickArg ps n with
     | none => .bad ⟨3, pc, w.sect, 7, 0, 0, 0⟩
     | some v =>
       let w2 := { w with trace := { st with sect := v, operand := v, cycle := 0 } :: w.trace, sect := v, cycle := 1 }
       if v ≤ w.sect ∨ t < v then .bad ⟨4, pc, w.sect, 7, v, t, 0⟩
       else if v = t then .stop w2
       else .on (w2.goto (pc + 1)))
  | i => .on ((w1.values ps i).goto (pc + 1))

/-- The path of a program through one tick, with the failed check that ends it. A section that takes the sequencer more cycles than the
limit ends it with BUDGET (R238); every instruction takes a cycle, so the fuel of T + 1 sections is enough. -/
def ThWalk.run (prog : List (Option Instr)) (descOf : Nat → Option Desc) (ps : List Nat) (t limit : Nat) : Nat → ThWalk → ThWalk × Option ThFail
  | 0, w => (w, failOver 7 w.c.pc w.sect 6 (limit + 1) limit 0)
  | n + 1, w =>
    match (prog[w.c.pc]?).getD none with
    | none => (w, none)
    | some i =>
      let d := match i with
        | .seXfer _ f => if f.ireg then none else descOf f.idx.toNat
        | _ => none
      let cyc := (regsRead d i).foldl (fun m r => max m (Tbl.get (fun _ => 0) w.ready r)) w.cycle
      let closes := match i with | .waitpick _ _ => true | _ => false
      if limit < cyc + 1 ∧ closes = false then (w, failOver 7 w.c.pc w.sect 6 (cyc + 1) limit 0)
      else
        let rdy := (regsWritten i).foldl (fun tb e => Tbl.set (fun _ => 0) tb e.1 (cyc + e.2)) w.ready
        match ({ w with cycle := cyc + 1, ready := match i with | .waitpick _ _ => [] | _ => rdy }).step ps t
            ⟨w.c.pc, i, w.sect, 0, cyc, w.c.sp, (List.range 4).map (fun d => (w.c.getL d).toNat)⟩ with
        | .on u => ThWalk.run prog descOf ps t limit n u
        | .stop u => (u, none)
        | .bad f => (w, some f)

/-- A role as the threader reads it: its logical core, its path in order, and how the path failed. -/
structure ThRole where
  core : Nat
  trace : List ThStep
  bad : Option ThFail
  deriving DecidableEq, Repr

/-- The trace of a role (R238, R523): parameters at their initial values. -/
def CoreSec.follow (c : CoreSec) (descOf : Nat → Option Desc) (t limit : Nat) : ThRole :=
  let r := ThWalk.run (c.weft.map (fun w => decodeWeft (.woven 0) w)) descOf c.params t limit ((t + 1) * (limit + 1)) ThWalk.init
  ⟨c.core, r.1.trace.reverse, r.2⟩

/-! ### Ganging mode, weight tiles and stream slots along the path (R93, R255) -/

/-- An instruction of the path with what holds before it: the ganging mode, none after a CFG.GANG in register form; the engines that may
hold a valid weight tile; and the descriptor that each stream slot was started with and its index, where the index is fixed and the image
holds the descriptor. -/
structure ThAnn where
  st : ThStep
  mode : Option Nat
  valid : List Bool
  slots : Tbl (Option (Nat × Desc))
  deriving DecidableEq, Repr

/-- The engines that a pass drives. -/
def mpassEngines (f : MPass) : List Nat := if f.target.toNat = 4 then [0, 1, 2, 3] else [f.target.toNat]

/-- Mode, weight tiles and slots after an instruction. -/
def ThAnn.after (descOf : Nat → Option Desc) (x : ThAnn) : Option Nat × List Bool × Tbl (Option (Nat × Desc)) :=
  match x.st.i with
  | .cfgGang _ (.imm m) => (some m.toNat, [false, false, false, false], x.slots)
  | .cfgGang _ (.sel _) => (none, [true, true, true, true], x.slots)
  | .mpass _ f => (x.mode, if f.new then (x.valid.zipIdx).map (fun (b, e) => b || (mpassEngines f).contains e) else x.valid, x.slots)
  | .seXfer _ f => (x.mode, x.valid, Tbl.set (fun _ => none) x.slots f.slot.toNat
      (if f.ireg then none else (descOf f.idx.toNat).map (fun d => (f.idx.toNat, d))))
  | _ => (x.mode, x.valid, x.slots)

/-- The annotated path from a ganging mode and the engines with a valid tile, and what holds at its end. -/
def annotate (descOf : Nat → Option Desc) : List ThStep → Option Nat → List Bool → Tbl (Option (Nat × Desc)) →
    List ThAnn × Option Nat × List Bool
  | [], m, v, _ => ([], m, v)
  | st :: r, m, v, sl =>
    let x : ThAnn := ⟨st, m, v, sl⟩
    let e := x.after descOf
    let q := annotate descOf r e.1 e.2.1 e.2.2
    (x :: q.1, q.2)

/-- The descriptor of a stream slot. -/
def ThAnn.slot (x : ThAnn) (k : BitVec 4) : Option Desc := (Tbl.get (fun _ => none) x.slots k.toNat).map (fun e => e.2)

/-- The index of the descriptor that an instruction names or whose stream it consumes, 0 where it has none. -/
def ThAnn.descIdx (x : ThAnn) : Nat :=
  let slotNo := fun (k : BitVec 4) => ((Tbl.get (fun _ => none) x.slots k.toNat).map (fun e => e.1)).getD 0
  match x.st.i with
  | .seXfer _ f => f.idx.toNat
  | .req _ f => slotNo f.oslot
  | .pool _ f => slotNo f.islot
  | .dwconv _ f => slotNo f.islot
  | _ => 0

/-- Row masks of a gang pass reach past S31 (R255). -/
def ThAnn.badRows (x : ThAnn) : Bool :=
  match x.st.i, x.mode with
  | .mpass _ f, some m => f.target.toNat == 4 && f.rsel.toNat != 0x3F && decide (32 < f.rsel.toNat + gangBlocks m)
  | _, _ => false

/-- A pass that check IMMEDIATE rejects on its path (Table, MPASS halts): a format that does not pair, a reuse without a valid tile, a
target that the mode does not have, or a weight stream that cannot load. -/
def ThAnn.badPass (x : ThAnn) : Bool :=
  match x.st.i with
  | .mpass _ f =>
    (match x.slot f.aslot with | some d => decide (d.kind ≤ 1) && !actPairs f.pair.toNat d.fmtEng | none => false) ||
    (!f.new && (mpassEngines f).any (fun e => !(x.valid.getD e true))) ||
    (match x.mode with | some m => (m == 0) == (f.target.toNat == 4) | none => false) ||
    (f.new && (match x.slot f.wslot with | some d => d.kind == 1 || (d.kind == 0 && !weightPairs f.pair.toNat d.fmtEng) | none => false))
  | _ => false

/-- A use that check DESCRIPTOR rejects: a fixed index whose entry in the image fails its CRC or its rules, or a stream that its consumer
does not allow (R108, R167, R257, R259). -/
def ThAnn.badDesc (raw : Nat → Option (List Nat)) (x : ThAnn) : Bool :=
  match x.st.i with
  | .seXfer _ f => !f.ireg && (match raw f.idx.toNat with | some b => !(descCrcOk b && (Desc.ofBytes b).ok) | none => false)
  | .req _ f => (match x.slot f.oslot with
      | some d => d.kind != 2 || decide (31 < d.cnt.getD 0 0) || d.fmtEng != reqFmt f.tgt.toNat
      | none => false)
  | .pool _ f => (match x.slot f.islot with | some d => decide (d.kind ≤ 1) && !poolStream d f.glob | none => false)
  | .dwconv _ f => (match x.slot f.islot with
      | some d => decide (d.kind ≤ 1) && !(poolStream d false && dwPair d f.wfmt.toNat)
      | none => false)
  | _ => false

/-- The first step of a path for which a test holds. -/
def firstBad (xs : List ThAnn) (check : Nat) (p : ThAnn → Bool) : Option ThFail :=
  match xs.find? p with
  | some x => some ⟨check, x.st.idx, x.st.sect, 7, 0, 0, if check = 6 then x.descIdx else 0⟩
  | none => none

/-- More than 256 fixed indices in a tick (R177): the step that names one too many. -/
def tooManyDescs (xs : List ThAnn) : Option ThFail :=
  let uses := xs.filterMap (fun x => match x.st.i with
    | .seXfer _ f => if f.ireg then none else some (f.idx.toNat, x.st)
    | _ => none)
  let n := (uses.map (fun u => u.1)).eraseDups.length
  if n ≤ 256 then none
  else match (uses.zipIdx).find? (fun (_, k) => decide (256 < ((uses.take (k + 1)).map (fun u => u.1)).eraseDups.length)) with
    | some (u, _) => failOver 6 u.2.idx u.2.sect 7 n 256 u.1
    | none => none

/-! ### BUDGET (R47, R90, R91, R265) -/

/-- A pass as its engine is charged: new weights, issue interval, vectors, weight load cycles, R + C. -/
structure ThPass where
  new : Bool
  q : Nat
  m : Nat
  w : Nat
  rc : Nat
  deriving DecidableEq, Repr

/-- Weight load cycles of a pair (Table, Operand pairs of a matrix engine). -/
def loadCycles (pair : Nat) : Nat := if pair = 2 then 17 else if 4 ≤ pair then 32 else 16

/-- R + C of a ganging mode (Table, Ganging modes). -/
def gangLatency (mode : Nat) : Nat := if mode = 0 then 64 else if mode = 1 then 128 else 160

/-- The rest of a chain after a pass that starts at a cycle: the cycle of its last result (R90, R91). -/
def chainEnd (start : Nat) (lastNew : Option Nat) (p : ThPass) : List ThPass → Nat
  | [] => start + p.q * (p.m - 1) + p.rc
  | n :: r =>
    let s0 := start + p.q * p.m
    let s1 := match n.new, lastNew with
      | true, some l => max s0 (l + n.rc)
      | _, _ => s0
    chainEnd s1 (if n.new then some s1 else lastNew) n r

/-- The duration of a chain (R91). -/
def chainCost : List ThPass → Nat
  | [] => 0
  | p :: r => if p.new then chainEnd (p.w + 1) (some (p.w + 1)) p r else chainEnd 0 none p r

/-- The pass of an instruction as engine e is charged it; after a CFG.GANG in register form every pass counts as a gang pass of the
longest latency (R255). -/
def ThAnn.passOn (x : ThAnn) (e : Nat) : Option ThPass :=
  match x.st.i with
  | .mpass _ f =>
    let p := fun rc => some ⟨f.new, qOf f.pair.toNat, f.mcount.toNat + 1, loadCycles f.pair.toNat, rc⟩
    match x.mode with
    | none => p 160
    | some m => if (mpassEngines f).contains e then p (gangLatency (if f.target.toNat = 4 then m else 0)) else none
  | _ => none

/-- The chains of engine e in the steps of a section: a mode change ends one and drains for 4 cycles (R93, R252). -/
def meCost (e : Nat) : List ThAnn → List ThPass → Nat
  | [], ch => chainCost ch.reverse
  | x :: r, ch =>
    match x.st.i with
    | .cfgGang _ _ => chainCost ch.reverse + 4 + meCost e r []
    | _ => match x.passOn e with
      | some p => meCost e r (p :: ch)
      | none => meCost e r ch

/-- Stream engine cycles of a command; before holds the regions that the tick has opened before it (Table, Weft cycle costs). -/
def seCost (regions : List CarryRegion) (before : List Nat) : Instr → Nat
  | .seXfer _ _ => 4
  | .seInv _ _ => 2
  | .carryBegin _ r =>
    if before.contains r.toNat then 0
    else match regions.find? (fun g => g.region == r.toNat) with
      | some g => 8 + ((g.bx1 - g.bx0) * (g.by1 - g.by0) + 511) / 512
      | none => 8
  | .statOut _ _ _ => 24
  | .maxabsOut _ _ => 40
  | _ => 0

/-- The stream whose shape a vector command's cost depends on. -/
def ThAnn.shape (x : ThAnn) : Option Desc :=
  match x.st.i with
  | .pool _ f => x.slot f.islot
  | .dwconv _ f => x.slot f.islot
  | _ => none

/-- The regions that CARRY.BEGIN names in a path. -/
def openedIn (xs : List ThAnn) : List Nat :=
  xs.filterMap (fun x => match x.st.i with | .carryBegin _ r => some r.toNat | _ => none)

/-- The unit that is over the limit in a section: the engine number of the report and its cycles. -/
def sectionOver (regions : List CarryRegion) (before : List Nat) (limit : Nat) (xs : List ThAnn) : Option (Nat × Nat) :=
  let se := ((xs.zipIdx).map (fun (x, k) => seCost regions (before ++ openedIn (xs.take k)) x.st.i)).foldl (· + ·) 0
  let ve := (xs.map (fun x => veCost x.shape x.st.i)).foldl (· + ·) 0
  let seq := (xs.map (fun x => x.st.cycle + 1)).foldl max 0
  (([meCost 0 xs [], meCost 1 xs [], meCost 2 xs [], meCost 3 xs [], ve, se, seq].zipIdx).find? (fun (n, _) => decide (limit < n))).map
    (fun (n, e) => (e, n))

/-- A step that an engine of the report is charged for. -/
def ThAnn.uses (x : ThAnn) (regions : List CarryRegion) (e : Nat) : Bool :=
  if e < 4 then (x.passOn e).isSome else if e = 4 then veCost x.shape x.st.i != 0 else if e = 5 then seCost regions [] x.st.i != 0 else true

/-- The first section in which a unit needs more cycles than the limit. -/
def budgetFail (regions : List CarryRegion) (limit : Nat) (xs : List ThAnn) : Option ThFail :=
  ((xs.map (fun x => x.st.sect)).eraseDups).findSome? (fun n =>
    let own := xs.filter (fun x => x.st.sect == n)
    let before := openedIn (xs.takeWhile (fun x => x.st.sect != n))
    match sectionOver regions before limit own with
    | some (e, cyc) => failOver 7 (((own.find? (fun x => x.uses regions e)).map (fun x => x.st.idx)).getD noIndex) n e cyc limit 0
    | none => none)

/-! ### MARGIN (R50, R263) -/

/-- The entries that a path places in record queue q: the section and weft index of each; none where EMIT.DET places a number that only
scratchpad tells. -/
def queuedBy (xs : List ThAnn) (q : Nat) : Option (List (Nat × Nat)) :=
  xs.foldl (fun acc x => match x.st.i with
    | .emitRec _ _ k n => if k.toNat = q then acc.map (fun l => l ++ List.replicate (n.toNat + 1) (x.st.sect, x.st.idx)) else acc
    | .emitDet _ f => if f.q.toNat = q then none else acc
    | _ => acc) (some [])

/-- Entries of a queue beside its slots: a wrong number, a slot too early, or more than 1,024 queued. -/
def queueFail (margin : Nat) (es : List (Nat × Nat)) (slots : List Nat) : Option ThFail :=
  if es.length ≠ slots.length then failOver 8 noIndex noIndex 4 es.length slots.length 0
  else match (es.zip slots).find? (fun (e, s) => decide (s < e.1 + margin)) with
    | some (e, s) => failOver 8 e.2 s 4 (s - e.1) margin 0
    | none => match es.find? (fun e => decide (1024 < (es.filter (fun o => decide (o.1 ≤ e.1))).length - (slots.filter (fun s => decide (s < e.1))).length)) with
      | some e => failOver 8 e.2 e.1 4 ((es.filter (fun o => decide (o.1 ≤ e.1))).length - (slots.filter (fun s => decide (s < e.1))).length) 1024 0
      | none => none

/-- The picks of a role's slots of queue q, in retirement order. -/
def slotPicks (slots : List RetSlot) (l q : Nat) : List Nat :=
  (slots.filter (fun s => s.kind == 0 && s.core == l && s.queue == q)).map (fun s => s.pick)

/-- Check MARGIN of a role. -/
def marginFail (margin l : Nat) (slots : List RetSlot) (xs : List ThAnn) : Option ThFail :=
  (List.range 8).findSome? (fun q => match queuedBy xs q with
    | some es => queueFail margin es (slotPicks slots l q)
    | none => none)

/-! ### Addresses and pushes that are fixed at load -/

/-- The device addresses of the elements of a transfer whose descriptor, origins and offset are fixed at load. -/
def fixedAddrs (f : Xfer) (d : Desc) : List Nat :=
  if f.ireg || f.aen || f.oen || d.space != 0 || d.kind == 1 then []
  else (idxLists d.cnt).filterMap (fun i => (d.elem [f.o0.toNat, f.o1.toNat, f.o2.toNat, 0, 0] 0 [] i).map (fun e => e.1.toNat))

/-- An address in a core window other than the logical alias window of l (R157). -/
def otherCore (l a : Nat) : Bool :=
  (decide (0x1000000000 ≤ a) && decide (a < 0x1090000000)) ||
  (decide (0x1100000000 ≤ a) && decide (a < 0x1180000000) && !(decide (aliasBase l ≤ a) && decide (a < aliasBase l + 0x2000000)))

/-- A push whose target is fixed at load: target logical core, landing buffer, slot, and the step. -/
structure ThPush where
  target : Nat
  buf : Nat
  slot : Nat
  st : ThStep
  deriving DecidableEq, Repr

/-- The fixed pushes of a path. -/
def pushesOf (descOf : Nat → Option Desc) (tr : List ThStep) : List ThPush :=
  tr.filterMap (fun st => match st.i with
    | .seXfer _ f => if f.ireg then none else match descOf f.idx.toNat with
      | some d => if d.kind = 5 then some ⟨field d.aux 0 6, field d.aux 8 6, field d.aux 16 4, st⟩ else none
      | none => none
    | _ => none)

/-- The sections of a role whose transfers read a landing slot at fixed addresses. -/
def consumedAt (descOf : Nat → Option Desc) (c : CoreSec) (tr : List ThStep) (buf slot : Nat) : List Nat :=
  match c.land.find? (fun b => b.number == buf) with
  | none => []
  | some b =>
    let lo := aliasBase c.core + b.offset + slot * b.slotBytes
    tr.filterMap (fun st => match st.i with
      | .seXfer _ f => match (if f.ireg then none else descOf f.idx.toNat) with
        | some d => if d.kind ≠ 2 ∧ d.kind ≠ 4 ∧ (fixedAddrs f d).any (fun a => decide (lo ≤ a) && decide (a < lo + b.slotBytes)) then some st.sect else none
        | none => none
      | _ => none)

/-! ### REENTRY (R60) -/

/-- The position in a path at which a re-entry point at pick offset p stands (02, re-entry table). -/
def reentryPos (xs : List ThAnn) (p : Nat) : Nat :=
  if p = 0 then 0
  else ((xs.zipIdx).find? (fun (x, _) => match x.st.i with
    | .waitpick _ _ => decide (p ≤ x.st.operand)
    | _ => false)).elim xs.length (fun e => e.2)

/-- A carry region is open after a path. -/
def regionOpen (xs : List ThAnn) : Bool :=
  xs.foldl (fun b x => match x.st.i with | .carryBegin _ _ => true | .carryEnd _ => false | _ => b) false

/-- The step that reads a register which the tick writes before any step from a point on writes it; the register keeps its value across
the tick boundary (R223), so the steps of the next tick follow those of the rest. -/
def liveRegister (descOf : Nat → Option Desc) (xs rest : List ThAnn) : Option ThAnn :=
  let rd := fun (x : ThAnn) => regsRead (match x.st.i with | .seXfer _ f => if f.ireg then none else descOf f.idx.toNat | _ => none) x.st.i
  let wr := fun (x : ThAnn) => (regsWritten x.st.i).map (fun e => e.1)
  (List.range 48).findSome? (fun r =>
    if xs.any (fun x => (wr x).contains r) then
      ((rest ++ xs).find? (fun x => (rd x).contains r || (wr x).contains r)).filter (fun x => (rd x).contains r)
    else none)

/-- The first pass of an engine from a point on that reuses weights. -/
def reuseFirst (steps : List ThAnn) : Option ThAnn :=
  (List.range 4).findSome? (fun e => (steps.find? (fun x => (x.passOn e).isSome)).filter (fun x => match x.passOn e with
    | some p => !p.new
    | none => false))

/-- The barriers of a path: number, mask and section. -/
def syncsOf (tr : List ThStep) : List (Nat × Nat × ThStep) :=
  tr.filterMap (fun st => match st.i with | .sync _ b m => some (b.toNat, m.toNat, st) | _ => none)

/-- A barrier that a role of its mask has reached before pick offset p and another reaches at or after it. -/
def barrierOpen (roles : List ThRole) (g p : Nat) (b : Nat) : Bool :=
  let secs := (roles.filter (fun r => r.core / 8 == g)).flatMap (fun r => ((syncsOf r.trace).filter (fun y => y.1 == b)).map (fun y => y.2.2.sect))
  secs.any (fun n => decide (n < p)) && secs.any (fun n => decide (p ≤ n))

/-- The number of record slots of role l before pick p. -/
def slotsBefore (slots : List RetSlot) (l p : Nat) : Nat :=
  (slots.filter (fun s => s.kind == 0 && s.core == l && decide (s.pick < p))).length

/-- What R60 asks at one re-entry point of a role, and that its entry describes that point. xs is the path of a later tick and first the
path of the first tick, which differs in the ganging mode alone; the mode field may hold either. Past a HALT the entry may name any index. -/
def reentryFail (descOf : Nat → Option Desc) (c : CoreSec) (roles : List ThRole) (slots : List RetSlot) (modes : Option Nat × Option Nat)
    (first xs : List ThAnn) (p : Nat) : Option ThFail :=
  let k := reentryPos xs p
  let rest := xs.drop k
  let here := rest.head?
  let idx := (here.map (fun x => x.st.idx)).getD c.weft.length
  let halted := here.isNone && (match xs.getLast? with | some x => (match x.st.i with | .halt _ => true | _ => false) | none => false)
  let mode := match here with | some x => x.mode | none => modes.2
  let mode1 := match (first.drop k).head? with | some x => x.mode | none => modes.1
  let bad := fun (i engine needed detail : Nat) => (some ⟨9, i, p, engine, needed, 0, detail⟩ : Option ThFail)
  let late := ((List.range 8).map (fun q => match queuedBy xs q with
    | some es => ((es.zip (slotPicks slots c.core q)).filter (fun (e, s) => decide (e.1 < p) && decide (p ≤ s))).length
    | none => 0)).foldl (· + ·) 0
  let full := (roles.flatMap (fun r => pushesOf descOf r.trace)).find? (fun u => u.target == c.core && decide (u.st.sect < p) &&
    (match roles.find? (fun r => r.core == c.core) with
     | some r => match (consumedAt descOf c r.trace u.buf u.slot).find? (fun n => decide (u.st.sect ≤ n)) with
       | some n => decide (p ≤ n)
       | none => false
     | none => false))
  let ownBarrier := ((syncsOf ((xs.take k).map (fun x => x.st))).map (fun y => y.1)).find? (fun b => barrierOpen roles (c.core / 8) p b)
  match liveRegister descOf xs rest with
  | some x => bad x.st.idx 7 0 0
  | none =>
    if late ≠ 0 then bad noIndex 4 late 0
    else match full with
      | some u => bad idx 5 0 u.buf
      | none =>
        if (here.map (fun x => x.st.sp)).getD 0 ≠ 0 then bad idx 7 ((here.map (fun x => x.st.sp)).getD 0) 0
        else if regionOpen (xs.take k) then bad idx 7 0 0
        else match ownBarrier with
          | some b => bad idx 7 0 b
          | none =>
            if mode = none ∨ mode1 = none then bad idx 7 0 0
            else match reuseFirst (rest ++ xs) with
              | some x => bad x.st.idx 7 0 0
              | none => match c.reentry.find? (fun r => r.pick == p) with
                | some r =>
                  if (r.index ≠ idx ∧ halted = false) ∨ (here.any (fun x => decide (r.loops ≠ x.st.loops))) = true ∨
                      (some r.mode ≠ mode ∧ some r.mode ≠ mode1) ∨ r.retire ≠ slotsBefore slots c.core p
                  then bad idx 7 0 0 else none
                | none => none

/-! ### LANDING, SYNC and CARRY (R157, R180, R184, R227, R247) -/

/-- Check LANDING of a role: a fixed push to a core without a core section (R66), or to a
buffer or slot that its target does not declare, a slot that may still be occupied while
the receiver lags by 2 picks, or a load from another core at a fixed address. -/
def landingFail (descOf : Nat → Option Desc) (c : CoreSec) (cores : List CoreSec) (roles : List ThRole) (tr : List ThStep) : Option ThFail :=
  let undeclared := (pushesOf descOf tr).find? (fun u => match cores.find? (fun k => k.core == u.target) with
    | some k => match k.land.find? (fun b => b.number == u.buf) with
      | some b => decide (b.slots ≤ u.slot)
      | none => true
    | none => true)
  let mine := (roles.flatMap (fun r => pushesOf descOf r.trace)).filter (fun u => u.target == c.core)
  let tight := mine.find? (fun u => mine.any (fun v => v.buf == u.buf && v.slot == u.slot && decide (u.st.sect < v.st.sect) &&
    (consumedAt descOf c tr u.buf u.slot).any (fun n => decide (u.st.sect ≤ n) && decide (n < v.st.sect) && decide (v.st.sect ≤ n + 2))))
  let far := tr.findSome? (fun st => match st.i with
    | .seXfer _ f => match (if f.ireg then none else descOf f.idx.toNat) with
      | some d => if d.kind = 0 ∨ d.kind = 3 then ((fixedAddrs f d).find? (otherCore c.core)).map (fun a => (st, a / 0x2000000 % 128)) else none
      | none => none
    | _ => none)
  if 64 < c.land.length then failOver 10 noIndex noIndex 7 c.land.length 64 0
  else match undeclared, tight, far with
    | some u, _, _ => some ⟨10, u.st.idx, u.st.sect, 5, 0, 0, if cores.any (fun k => k.core == u.target) then u.buf else u.target⟩
    | none, some u, _ => some ⟨10, noIndex, u.st.sect, 5, 0, 0, u.buf⟩
    | none, none, some (st, k) => some ⟨10, st.idx, st.sect, 5, 0, 0, k⟩
    | none, none, none => none

/-- Check SYNC of a role (R66, R227): a barrier used twice, a mask that names a core without a core section or a role that does not name the
barrier with that mask, another role of the cluster that uses the barrier with another mask, or a barrier that is pending across a
re-entry point. -/
def syncFail (roles : List ThRole) (l t : Nat) (tr : List ThStep) : Option ThFail :=
  let own := syncsOf tr
  let others := (roles.filter (fun r => r.core / 8 == l / 8 && r.core != l)).flatMap (fun r => syncsOf r.trace)
  match (own.zipIdx).find? (fun (y, k) => (own.take k).any (fun z => z.1 == y.1) ||
      others.any (fun z => z.1 == y.1 && z.2.1 != y.2.1) ||
      (List.range 8).any (fun i => y.2.1.testBit i && !(roles.any (fun r => r.core == 8 * (l / 8) + i &&
        (syncsOf r.trace).any (fun z => z.1 == y.1 && z.2.1 == y.2.1)))) ||
      (List.range ((t + 63) / 64)).any (fun n => barrierOpen roles (l / 8) (64 * n) y.1)) with
  | some (y, _) => some ⟨12, y.2.2.idx, y.2.2.sect, 7, 0, 0, y.1⟩
  | none => none

/-- Check CARRY of a path (R247): a CARRY.BEGIN inside a region, a CARRY.END outside one, or a region that is not declared. -/
def carryFail (c : CoreSec) (xs : List ThAnn) : Option ThFail :=
  match (xs.zipIdx).find? (fun (x, k) => match x.st.i with
      | .carryBegin _ r => regionOpen (xs.take k) || !(c.regions.any (fun g => g.region == r.toNat))
      | .carryEnd _ => !(regionOpen (xs.take k))
      | _ => false) with
  | some (x, _) => some ⟨13, x.st.idx, x.st.sect, 7, 0, 0, 0⟩
  | none => none

/-- Check CARRY of the tables of a core section (R53, R162): a footprint whose end precedes its start, or an output range that reaches
past the role's carry state. -/
def carryTables (c : CoreSec) (carry : Nat) : Option ThFail :=
  if 0x40000 < carry then failOver 13 noIndex noIndex 7 carry 0x40000 0
  else match c.outs.find? (fun o => decide (carry < o.carry + o.size)) with
    | some o => failOver 13 noIndex noIndex 7 (o.carry + o.size) carry 0
    | none => if c.regions.any (fun r => decide (r.bx1 < r.bx0) || decide (r.by1 < r.by0)) then failAt 13 noIndex else none

/-! ### The checks of a role in order (R238) -/

/-- What the threader knows of the image and the variant that a role belongs to. -/
structure ThEnv where
  weft2 : Bool
  tick : Nat
  limit : Nat
  margin : Nat
  descs : List (Nat × List Nat)
  cores : List CoreSec
  slots : List RetSlot
  deriving DecidableEq, Repr

/-- The image's bytes of a descriptor table entry. -/
def ThEnv.raw (v : ThEnv) (i : Nat) : Option (List Nat) := (v.descs.find? (fun e => e.1 == i)).map (fun e => e.2)

/-- The image's descriptor of an index. -/
def ThEnv.desc (v : ThEnv) (i : Nat) : Option Desc := (v.raw i).map Desc.ofBytes

/-- The paths of every role of the variant. -/
def ThEnv.roles (v : ThEnv) : List ThRole := v.cores.map (fun c => c.follow v.desc v.tick v.limit)

/-- The failed check that ended a path, if it is the check given. -/
def ThRole.failed (r : ThRole) (check : Nat) : Option ThFail := r.bad.filter (fun f => f.check == check)

/-- The first failed check of a role, in the order of Table, Threader checks. The path is checked from mode 0b00, as in the first tick,
and from the mode and the weight tiles that it leaves, as in each later tick (R93). -/
def ThEnv.check (v : ThEnv) (c : CoreSec) : Option ThFail :=
  let r := c.follow v.desc v.tick v.limit
  let one := annotate v.desc r.trace (some 0) [false, false, false, false] []
  let two := annotate v.desc r.trace one.2.1 one.2.2 []
  let both := one.1 ++ two.1
  let carry := (c.carry.map (fun k => k.size)).foldl (· + ·) 0
  match encodingError v.weft2 c.weft, syncError c.core c.weft with
  | some i, _ => failAt 1 i
  | none, some e => failOver 1 e.1 noIndex 7 0 0 e.2
  | none, none =>
    (firstBad both 1 ThAnn.badRows) <|>
    (if 16384 < c.weft.length then failOver 2 noIndex noIndex 7 c.weft.length 16384 0 else none) <|>
    (structureError c.weft) <|> (r.failed 3) <|> (r.failed 4) <|>
    ((immediateError c.weft).bind (failAt 5)) <|> (firstBad both 5 ThAnn.badPass) <|>
    (tooManyDescs one.1) <|> (firstBad both 6 (ThAnn.badDesc v.raw)) <|>
    (budgetFail c.regions v.limit one.1) <|> (budgetFail c.regions v.limit two.1) <|> (r.failed 7) <|>
    (marginFail v.margin c.core v.slots one.1) <|>
    ((List.range ((v.tick + 63) / 64)).findSome? (fun n => reentryFail v.desc c v.roles v.slots (one.2.1, two.2.1) one.1 two.1 (64 * n))) <|>
    (landingFail v.desc c v.cores v.roles r.trace) <|> (syncFail v.roles c.core v.tick r.trace) <|>
    (carryTables c carry) <|> (carryFail c one.1)

/-- The unit of an instruction as a report numbers it: the first engine of a pass, 4 VE, 5 SE, 6 sequencer (Table, Weft cycle costs). -/
def reportEngine (i : Instr) : Nat :=
  match i with
  | .mpass _ f => f.target.toNat % 4
  | .nmsSort _ _ => 4
  | _ => if veCost none i ≠ 0 then 4 else if seCost [] [] i ≠ 0 then 5 else 6

/-- A report with the engine of the instruction at fault, where the check names one and it is not ENCODING, and the first section of the
path that holds an operand which IMMEDIATE rejects. -/
def ThFail.fill (f : ThFail) (c : CoreSec) (tr : List ThStep) : ThFail :=
  let e := if f.engine ≠ 7 ∨ f.check = 1 then f.engine
    else match (c.weft[f.index]?).bind (fun w => decodeWeft (.woven 0) w) with
      | some i => reportEngine i
      | none => 7
  let p := if f.check = 5 ∧ f.pick = noIndex then ((tr.find? (fun st => st.idx == f.index)).map (fun st => st.sect)).getD noIndex else f.pick
  { f with engine := e, pick := p }

/-- A failed check as the report of a role. -/
def ThFail.report (f : ThFail) (core variant : Nat) : ThrReport :=
  ⟨BitVec.ofNat 6 core, BitVec.ofNat 8 f.check, BitVec.ofNat 16 variant, BitVec.ofNat 20 f.index, BitVec.ofNat 20 f.pick,
    BitVec.ofNat 3 f.engine, BitVec.ofNat 32 f.needed, BitVec.ofNat 32 f.allowed, BitVec.ofNat 32 f.detail⟩

/-- The checks that the model decides in part, so that the command may report them: BUDGET with the waits of engines, MARGIN with EMIT.DET,
REENTRY and LANDING with addresses in registers, PUSH_BOUND and CLUSTER_PROG (assumption 13). -/
def openCheck (n : Nat) : Bool := [7, 8, 9, 10, 11, 14].contains n

/-- The report of a role: what the checks find, or the report that the command gives for the role, whichever check comes first. -/
def ThEnv.report (v : ThEnv) (variant : Nat) (given : Option ThrReport) (c : CoreSec) : Option ThrReport :=
  let found := (v.check c).map (fun f => (f.fill c (c.follow v.desc v.tick v.limit).trace).report c.core variant)
  match given with
  | some g =>
    if g.core.toNat = c.core ∧ g.variant.toNat = variant ∧ openCheck g.check.toNat = true then
      (match found with
       | some t => if t.check.toNat ≤ g.check.toNat then some t else some g
       | none => some g)
    else found
  | none => found

end Sys2Proof.Machine
end

