-- ==== Sys2Proof/Machine/Image.lean ====
section
/-! DEFINITION. The weave image: the load checks in the order of R66 and the layouts of its sections
(02_the_weave.md R58 to R60, R66, R519, R520; 12 R321; 19 R491; 08 R237 to R240). -/

namespace Sys2Proof.Machine

/-- Load errors (Table, Load errors). -/
def errBus : Nat := 0x01
def errMagic : Nat := 0x02
def errHeaderCrc : Nat := 0x03
def errFormat : Nat := 0x04
def errPart : Nat := 0x05
def errProfile : Nat := 0x06
def errDigest : Nat := 0x07
def errVariants : Nat := 0x08
def errResource : Nat := 0x09
def errOrder : Nat := 0x0A
def errThreader : Nat := 0x0B
def errHedge : Nat := 0x0C

/-- How a load ends: an error code, its where field and a threader report, or an image. -/
inductive LoadRes where
  | fail (code wher : Nat) (rep : Option ThrReport)
  | ok (im : Image)
  deriving DecidableEq, Repr

/-- A section directory entry. -/
structure DirEnt where
  type : Nat
  variant : Nat
  target : Nat
  offset : Nat
  size : Nat
  crc : Nat
  deriving DecidableEq, Repr

/-- Bytes [o + n − 1 : o] are 0. -/
def State.zeroAt (s : State) (a n : Nat) : Bool := s.le a n == 0

/-- The directory entry at an address. -/
def State.dirEnt (s : State) (a : Nat) : DirEnt :=
  ⟨s.le a 2, s.le (a + 2) 2, s.le (a + 4) 2, s.le (a + 8) 8, s.le (a + 16) 8, s.le (a + 24) 4⟩

/-- Entries of a fixed size from an address. -/
def entriesAt (a size n : Nat) : List Nat := (List.range n).map (fun i => a + size * i)

/-! ### Header (steps 1 to 7 of R66) -/

/-- Step 4: the header fields are in range and the directory lies in the image. -/
def State.headerOk (s : State) (b : Nat) : Bool :=
  let u := fun o n => s.le (b + o) n
  let size := u 32 8
  u 4 2 == 3 && (u 8 2 == 0x960 || u 8 2 == 0x480) && decide (u 10 2 < 8) && decide (1000 ≤ u 12 4) && decide (u 12 4 ≤ 1000000) &&
  (u 16 1 == 45 || u 16 1 == 60 || u 16 1 == 90) && decide (120 ≤ u 17 1) && decide (3 ≤ u 18 1) && decide (u 18 1 ≤ 15) &&
  decide (1 ≤ u 19 1) && decide (16 ≤ u 20 2) && decide (u 20 2 ≤ 1024) && decide (1 ≤ u 22 2) && decide (u 22 2 ≤ 256) &&
  u 28 4 == 0 && u 104 20 == 0 && decide (128 ≤ size) && decide (size ≤ 0x10000000) &&
  decide (128 ≤ u 40 8) && decide (u 40 8 + 32 * u 24 4 ≤ size)

/-! ### Sections (step 9 of R66: R58, R519 and the section tables) -/

/-- A table of n entries of a size at an offset lies in a section. -/
def tableIn (sz off esize n : Nat) : Bool := n == 0 || decide (off + esize * n ≤ sz)

/-- A core section breaks no rule of its tables; tick is T. -/
def State.coreSecOk (s : State) (b sz tick : Nat) : Bool :=
  let u := fun o n => s.le (b + o) n
  let lbs := entriesAt (b + u 16 4) 16 (u 12 2)
  let crs := entriesAt (b + u 20 4) 8 (u 14 2)
  let rgs := entriesAt (b + u 28 4) 16 (u 24 2)
  let outs := entriesAt (b + u 32 4) 16 (u 26 2)
  let res := entriesAt (b + u 40 4) 32 (u 36 4)
  decide (64 ≤ sz) && u 48 16 == 0 && decide (1 ≤ u 0 4) && u 4 4 % 8 == 0 && tableIn sz (u 4 4) 8 (u 0 4) &&
  tableIn sz (u 8 4) 256 1 && decide (u 12 2 ≤ 64) && decide (u 14 2 ≤ 256) && decide (u 24 2 ≤ 4095) && decide (u 26 2 ≤ 16383) &&
  u 36 4 == (tick + 63) / 64 && tableIn sz (u 16 4) 16 (u 12 2) && tableIn sz (u 20 4) 8 (u 14 2) &&
  tableIn sz (u 28 4) 16 (u 24 2) && tableIn sz (u 32 4) 16 (u 26 2) && tableIn sz (u 40 4) 32 (u 36 4) &&
  lbs.all (fun a => decide (s.le a 1 ≤ 63) && decide (1 ≤ s.le (a + 1) 1) && decide (s.le (a + 1) 1 ≤ 16) && s.zeroAt (a + 2) 2 &&
    s.le (a + 4) 4 % 16 == 0 && s.le (a + 8) 4 % 16 == 0 && s.zeroAt (a + 12) 4 &&
    decide (s.le (a + 4) 4 + s.le (a + 1) 1 * s.le (a + 8) 4 ≤ 0x200000)) &&
  decide ((lbs.map (fun a => s.le a 1)).Nodup) &&
  crs.all (fun a => s.le a 4 % 16 == 0 && s.le (a + 4) 4 % 16 == 0 && decide (s.le a 4 + s.le (a + 4) 4 ≤ 0x200000)) &&
  rgs.all (fun a => decide (1 ≤ s.le a 2) && decide (s.le a 2 ≤ 4095) && decide (s.le (a + 12) 2 + s.le (a + 14) 2 ≤ u 26 2)) &&
  decide ((rgs.map (fun a => s.le a 2)).Nodup) &&
  outs.all (fun a => s.le (a + 4) 4 % 16 == 0 && s.zeroAt (a + 13) 3) &&
  (res.zip (List.range res.length)).all (fun (a, i) => s.le a 4 == 64 * i && decide (s.le (a + 28) 1 ≤ 3) && s.zeroAt (a + 29) 3)

/-- A core section as data. -/
def State.readCore (s : State) (b core : Nat) : CoreSec :=
  let u := fun o n => s.le (b + o) n
  { core := core,
    weft := (entriesAt (b + u 4 4) 8 (u 0 4)).map (fun a => s.le a 8),
    params := (entriesAt (b + u 8 4) 4 64).map (fun a => s.le a 4),
    land := (entriesAt (b + u 16 4) 16 (u 12 2)).map (fun a => ⟨s.le a 1, s.le (a + 1) 1, s.le (a + 4) 4, s.le (a + 8) 4⟩),
    carry := (entriesAt (b + u 20 4) 8 (u 14 2)).map (fun a => ⟨s.le a 4, s.le (a + 4) 4⟩),
    regions := (entriesAt (b + u 28 4) 16 (u 24 2)).map (fun a => ⟨s.le a 2, s.le (a + 2) 2, s.le (a + 4) 2, s.le (a + 6) 2,
      s.le (a + 8) 2, s.le (a + 10) 2, s.le (a + 12) 2, s.le (a + 14) 2⟩),
    outs := (entriesAt (b + u 32 4) 16 (u 26 2)).map (fun a => ⟨s.le a 4, s.le (a + 4) 4, s.le (a + 8) 5⟩),
    reentry := (entriesAt (b + u 40 4) 32 (u 36 4)).map (fun a => ⟨s.le a 4, s.le (a + 4) 4,
      (entriesAt (a + 8) 4 4).map (fun c => s.le c 4), s.le (a + 24) 4, s.le (a + 28) 1⟩),
    wsEnd := u 44 4 }

/-- Addresses of the fixed-size entries of a section. -/
def DirEnt.rows (d : DirEnt) (b esize : Nat) : List Nat := entriesAt (b + d.offset) esize (d.size / esize)

/-- A stream number that a weave may use (Table, Stream numbers). -/
def streamOk (n : Nat) : Bool := decide (n ≤ 0x1FF) || (decide (0x400 ≤ n) && decide (n ≤ 0x403)) || (decide (0x800 ≤ n) && decide (n ≤ 0xFFE))

/-- The kind 0 rows of an ISP timetable agree and no memory pass names their port (R321). -/
def State.inlineOk (s : State) (rows : List Nat) : Bool :=
  let inl := rows.filter (fun a => s.le (a + 4) 1 == 0)
  match inl with
  | [] => true
  | a :: _ =>
    inl.all (fun c => s.le (c + 5) 1 == s.le (a + 5) 1 && s.le (c + 7) 1 == s.le (a + 7) 1 && s.le (c + 8) 4 == s.le (a + 8) 4) &&
      rows.all (fun c => s.le (c + 4) 1 == 0 || s.le (c + 5) 1 != s.le (a + 5) 1)

/-- A section breaks no rule of its table (R58, R321). -/
def State.sectionOk (s : State) (b tick : Nat) (hedge : Bool) (d : DirEnt) : Bool :=
  let a0 := b + d.offset
  match d.type with
  | 0x01 => decide (d.target < 64) && s.coreSecOk a0 d.size tick
  | 0x02 => d.target == 0xFFFF && d.size % 16 == 0 && (d.rows b 16).all (fun a => decide (s.le a 4 < tick) && decide (s.le (a + 4) 1 ≤ 15) &&
      decide (s.le (a + 5) 1 < 16) && s.zeroAt (a + 14) 2)
  | 0x03 => d.target == 0xFFFF && d.size % 16 == 0 && (d.rows b 16).all (fun a => decide (s.le a 4 < tick) && decide (s.le (a + 4) 1 ≤ 1) &&
      decide (s.le (a + 5) 1 ≤ 3) && decide (s.le (a + 6) 1 < 4) && s.zeroAt (a + 14) 2 &&
      (if s.le (a + 4) 1 = 0 then decide (1 ≤ s.le (a + 7) 1) && decide (s.le (a + 7) 1 ≤ 200) else s.le (a + 7) 1 == 0)) &&
      s.inlineOk (d.rows b 16)
  | 0x04 => d.size % 16 == 0 && (d.rows b 16).all (fun a =>
      let kind := s.le (a + 5) 1
      let stream := s.le (a + 8) 2
      decide (s.le a 4 < tick) && s.le (a + 4) 1 == d.target && decide (kind ≤ 2) && decide (s.le (a + 7) 1 ≤ 7) &&
      decide (s.le (a + 12) 1 ≤ 1) && decide (s.le (a + 13) 1 ≤ 7) && s.zeroAt (a + 14) 2 &&
      (if kind = 0 then (decide (s.le (a + 6) 1 < 64) || (s.le (a + 6) 1 == 0xFE && s.le (a + 7) 1 == 0)) &&
          (if stream < 0x800 then s.le (a + 12) 1 == 0 else s.le (a + 13) 1 == 0)
       else s.le (a + 6) 1 == 0xFF && s.le (a + 12) 1 == 0 && s.le (a + 13) 1 == 0))
  | 0x05 => d.target == 0xFFFF && decide (16 ≤ d.size) && (
      let sc := s.le a0 4
      let oc := s.le (a0 + 8) 4
      let ss := entriesAt (a0 + s.le (a0 + 4) 4) 16 sc
      let os := entriesAt (a0 + s.le (a0 + 12) 4) 16 oc
      decide (1 ≤ sc) && decide (sc ≤ 2560) && decide (oc ≤ 1024) && tableIn d.size (s.le (a0 + 4) 4) 16 sc &&
      tableIn d.size (s.le (a0 + 12) 4) 16 oc &&
      ss.all (fun a =>
        let st := s.le a 2
        streamOk st && (decide (s.le (a + 2) 1 ≤ 63) || (hedge && s.le (a + 2) 1 == 255)) && decide (s.le (a + 3) 1 ≤ 7) &&
        s.zeroAt (a + 6) 2 && (decide (st < 0x800) || (s.le (a + 3) 1 == 0 && s.le (a + 4) 2 == 0xFFFF && s.le (a + 8) 4 == 0)) &&
        s.le (a + 12) 4 % 64 == 0 && ((decide (0x400 ≤ st) && decide (st ≤ 0x403)) || s.le (a + 12) 4 == 0)) &&
      decide ((ss.map (fun a => s.le a 2)).Nodup) &&
      os.all (fun a => decide (1 ≤ s.le (a + 2) 1) && decide (s.le (a + 2) 1 ≤ 4) && s.zeroAt (a + 3) 1 &&
        s.zeroAt (a + 12) 4 && (List.range 4).all (fun i => decide (i < s.le (a + 2) 1) || s.le (a + 4 + 2 * i) 2 == 0xFFFF)) &&
      decide ((os.map (fun a => s.le a 2)).Nodup))
  | 0x06 => d.target == 0xFFFF && d.size % 16 == 0 && (d.rows b 16).all (fun a => s.zeroAt (a + 5) 3)
  | 0x07 => d.target == 0xFFFF && d.size % 72 == 0 && (d.rows b 72).all (fun a => decide (s.le a 2 ≤ 4095) && s.zeroAt (a + 2) 6)
  | 0x08 => d.target == 0xFFFF && d.size % 32 == 0 && (d.rows b 32).all (fun a => decide (1 ≤ s.le (a + 2) 1) && decide (s.le (a + 2) 1 ≤ 4) &&
      decide (s.le (a + 3) 1 ≤ 2) && decide (1 ≤ s.le (a + 4) 4) && decide (s.le (a + 4) 4 ≤ 65535) && s.le (a + 8) 5 % 4096 == 0 &&
      s.zeroAt (a + 13) 3 && s.le (a + 16) 4 % 4096 == 0 && s.le (a + 16) 4 != 0 && s.zeroAt (a + 20) 12)
  | 0x09 => d.size == 16 && s.zeroAt (a0 + 8) 8 && (s.le (a0 + 6) 2 == 0 || decide (64 ≤ s.le (a0 + 6) 2))
  | 0x0A => decide (d.target < 64) && d.size % 16 == 0 && (d.rows b 16).all (fun a => decide (s.le a 1 ≤ 1) &&
      (if s.le a 1 = 0 then s.le (a + 1) 1 == 0 else decide (s.le (a + 1) 1 ≤ 3)) && s.zeroAt (a + 2) 2 && s.le (a + 4) 4 % 16 == 0 &&
      s.le (a + 8) 4 % 16 == 0 && s.zeroAt (a + 12) 4 &&
      decide (s.le (a + 4) 4 + s.le (a + 8) 4 ≤ if s.le a 1 = 0 then 0x200000 else 0x10000))
  | 0x0B => true
  | _ => false

/-- The sections lie in the image, are aligned and do not overlap (R58). -/
def dirOk (size : Nat) (ds : List DirEnt) : Bool :=
  ds.all (fun d => d.offset % 64 == 0 && decide (128 ≤ d.offset) && decide (d.offset + d.size ≤ size)) &&
  (ds.zipIdx).all (fun (d, i) => (ds.zipIdx).all (fun (e, j) => i == j || d.size == 0 || e.size == 0 ||
    decide (d.offset + d.size ≤ e.offset) || decide (e.offset + e.size ≤ d.offset)))

/-- A section belongs to variant v (R519). -/
def DirEnt.of (d : DirEnt) (v : Nat) : Bool := d.variant == v || d.variant == 0xFFFF

/-- The limits of R519 on the sections of one variant: one per type, or per type and target. -/
def onceOk (ds : List DirEnt) (v : Nat) : Bool :=
  let own := ds.filter (fun d => d.of v)
  let single := own.filter (fun d => d.type == 2 || d.type == 3 || d.type == 5)
  let aimed := own.filter (fun d => d.type == 1 || d.type == 4 || d.type == 9 || d.type == 10)
  decide ((single.map DirEnt.type).Nodup) && decide ((aimed.map (fun (d : DirEnt) => (d.type, d.target))).Nodup)

/-- The rows of every section of a type. -/
def rowsOfType (b : Nat) (ds : List DirEnt) (type esize : Nat) : List Nat :=
  (ds.filter (fun d => d.type == type)).flatMap (fun d => d.rows b esize)

/-- The variants whose sections R519 limits: those that some section or the variant directory names. -/
def State.variantIds (s : State) (b : Nat) (ds : List DirEnt) : List Nat :=
  ((ds.map (fun d => d.variant)).filter (fun v => v != 0xFFFF) ++ (rowsOfType b ds 6 16).map (fun a => s.le a 2)).eraseDups

/-- Step 9 of R66. -/
def State.formatOk (s : State) (b size tick : Nat) (hedge : Bool) (ds : List DirEnt) (dirAddrs : List Nat) : Bool :=
  dirAddrs.all (fun a => s.zeroAt (a + 6) 2 && s.zeroAt (a + 28) 4) && dirOk size ds &&
  ds.all (fun d => s.sectionOk b tick hedge d) && decide ((ds.filter (fun d => d.type == 6)).length ≤ 1) &&
  decide (((rowsOfType b ds 7 72).map (fun a => s.le a 2)).Nodup) && decide (((rowsOfType b ds 8 32).map (fun a => s.le a 2)).Nodup) &&
  (s.variantIds b ds).all (fun v => onceOk ds v)

/-! ### The image as data -/

/-- A retirement table entry. -/
def State.readRet (s : State) (a : Nat) : RetSlot :=
  ⟨s.le a 4, s.le (a + 4) 1, s.le (a + 5) 1, s.le (a + 6) 1, s.le (a + 7) 1, s.le (a + 8) 2, s.le (a + 10) 2, s.le (a + 12) 1 == 1,
    s.le (a + 13) 1⟩

/-- A variant with its sections. -/
def State.readVariant (s : State) (b : Nat) (ds : List DirEnt) (a : Nat) : Variant :=
  let id := s.le a 2
  let own := ds.filter (fun d => d.of id)
  let ofType := fun t => own.filter (fun d => d.type == t)
  { id := id, reduced := s.le (a + 2) 1, lost := s.le (a + 3) 1, dies := s.le (a + 4) 1,
    cores := (ofType 1).map (fun d => s.readCore (b + d.offset) d.target),
    dec := (rowsOfType b own 2 16).map (fun a => ⟨s.le a 4, s.le (a + 4) 1, s.le (a + 5) 1, s.le (a + 6) 2, s.le (a + 8) 2, s.le (a + 10) 2,
      s.le (a + 12) 2⟩),
    isp := (rowsOfType b own 3 16).map (fun a => ⟨s.le a 4, s.le (a + 4) 1, s.le (a + 5) 1, s.le (a + 6) 1, s.le (a + 7) 1, s.le (a + 8) 2,
      s.le (a + 10) 2, s.le (a + 12) 2⟩),
    ret := (rowsOfType b own 4 16).map s.readRet,
    binds := (ofType 5).flatMap (fun d => (entriesAt (b + d.offset + s.le (b + d.offset + 4) 4) 16 (s.le (b + d.offset) 4)).map (fun a =>
      ⟨s.le a 2, s.le (a + 2) 1, s.le (a + 3) 1, s.le (a + 4) 2, s.le (a + 8) 4, s.le (a + 12) 4⟩)),
    sets := (ofType 5).flatMap (fun d => (entriesAt (b + d.offset + s.le (b + d.offset + 12) 4) 16 (s.le (b + d.offset + 8) 4)).map (fun a =>
      ⟨s.le a 2, (entriesAt (a + 4) 2 (s.le (a + 2) 1)).map (fun c => s.le c 2)⟩)),
    rings := (ofType 9).map (fun d => ⟨d.target, s.le (b + d.offset) 5, s.le (b + d.offset + 5) 1, s.le (b + d.offset + 6) 2⟩),
    host := (ofType 10).flatMap (fun d => (d.rows b 16).map (fun a => ⟨d.target, s.le a 1, s.le (a + 1) 1, s.le (a + 4) 4, s.le (a + 8) 4⟩)) }

/-- The image as data. -/
def State.readImage (s : State) (b : Nat) (ds : List DirEnt) : Image :=
  { addr := b, flags := s.le (b + 10) 2, tick := s.le (b + 12) 4, profile := s.le (b + 16) 1, slackMin := s.le (b + 17) 1,
    margin := s.le (b + 18) 1, carryLimit := s.le (b + 19) 1, lead := s.le (b + 20) 2, weaveId := s.le (b + 96) 4, build := s.le (b + 100) 4,
    variants := (rowsOfType b ds 6 16).map (fun a => s.readVariant b ds a),
    descs := (rowsOfType b ds 7 72).map (fun a => (s.le a 2, s.bytes (a + 8) 64)),
    pools := (rowsOfType b ds 8 32).map (fun a => ⟨s.le a 2, s.le (a + 2) 1, s.le (a + 3) 1, s.le (a + 4) 4, s.le (a + 8) 5, s.le (a + 16) 4⟩) }

/-! ### Steps 10 to 12 of R66 -/

/-- Step 10: the variant directory and the core sections of each variant. -/
def Image.variantsOk (im : Image) (count clusters : Nat) : Bool :=
  im.variants.length == count && decide ((im.variants.map Variant.id).Nodup) &&
  im.variants.all (fun v =>
    (v.ret.filter (fun e => e.kind == 0 && e.core != 0xFE)).all (fun e => v.cores.any (fun c => c.core == e.core)) &&
    v.cores.all (fun c => !v.lost.testBit (c.core / 8) && !v.dies.testBit (c.core / 32) && decide (c.core < 8 * clusters)))

/-- Two address ranges overlap. -/
def rangesMeet (a n b m : Nat) : Bool := decide (a < b + m) && decide (b < a + n)

/-- A pool lies in usable DRAM or in the window ways that may hold it, and pools do not overlap (R519). -/
def State.poolsOk (s : State) (im : Image) : Bool :=
  im.pools.all (fun p => decide (p.base + p.count * p.size ≤ s.dramBytes) ||
    (decide (windowBase ≤ p.base) && decide (p.base + p.count * p.size ≤ windowBase + 0x2000000))) &&
  (im.pools.zipIdx).all (fun (p, i) => (im.pools.zipIdx).all (fun (q, j) => i == j ||
    !rangesMeet p.base (p.count * p.size) q.base (q.count * q.size)))

/-- The ring configurations of an image: rings 0 to 63 in usable DRAM; in a hedge image ring 255 alone, n = 12, in the window
from 16 MiB (R491). -/
def State.ringsOk (s : State) (im : Image) (hedge : Bool) : Bool :=
  im.variants.all (fun v =>
    v.rings.all (fun c => c.base % 4096 == 0 &&
      (if hedge then c.ring == 255 && c.log2 == 12 && decide (windowBase + 0x1000000 ≤ c.base) && decide (c.base + 64 * 4096 ≤ windowBase + 0x2000000)
       else decide (c.ring ≤ 63) && decide (10 ≤ c.log2) && decide (c.log2 ≤ 20) && decide (c.base + 64 * 2 ^ c.log2 ≤ s.dramBytes))) &&
    (!hedge || v.rings.length == 1) &&
    (v.ret.map (fun e => e.ring) ++ v.binds.map (fun e => e.ring)).all (fun r => v.rings.any (fun c => c.ring == r)))

/-- Weight-store ways that the core sections of a variant need in cluster g (R159). -/
def Variant.wsWays (v : Variant) (g : Nat) : Nat :=
  (((v.cores.filter (fun c => c.core / 8 == g)).map (fun c => c.wsEnd)).foldl max 0 + 0x7FFFF) / 0x80000

/-- The memory passes of an ISP timetable have time for their frames and do not overlap (R321): P and the rate in pixels
per pick. -/
def State.passesOk (s : State) (tick : Nat) (v : Variant) : Bool :=
  let rate := match v.isp.find? (fun e => e.kind == 0) with | some e => e.rate | none => 0
  let mem := v.isp.filter (fun e => e.kind == 1)
  mem.all (fun e =>
    let px := s.fld (Reg.PIX_GEOM e.port) 0 16 * s.fld (Reg.PIX_GEOM e.port) 16 16
    decide ((px + (1200 - rate) - 1) / (1200 - rate) + 20 ≤ e.deadline)) &&
  (mem.zipIdx).all (fun (e, i) => (mem.zipIdx).all (fun (f, j) => i == j ||
    (!rangesMeet e.pick e.deadline f.pick f.deadline && !rangesMeet e.pick e.deadline (f.pick + tick) f.deadline &&
     !rangesMeet (e.pick + tick) e.deadline f.pick f.deadline)))

/-- Step 11. -/
def State.resourceOk (s : State) (im : Image) (hedge : Bool) : Bool :=
  s.ringsOk im hedge && s.poolsOk im && decide (im.descs.length ≤ 4096) &&
  im.variants.all (fun v => (List.range 8).all (fun g => decide (v.wsWays g ≤ s.cacheWays g)) && s.passesOk im.tick v)

/-- Openings of a stream in a tick at or before pick offset p. -/
def Variant.openedBy (v : Variant) (stream p : Nat) : Nat :=
  (v.dec.filter (fun d => d.stream == stream && decide (d.pick ≤ p))).length +
  (v.isp.filter (fun d => 0x400 + d.port == stream && decide (d.pick ≤ p))).length

/-- Openings of a stream in a tick. -/
def Variant.perTick (v : Variant) (stream : Nat) : Nat := (v.dec.filter (fun d => d.stream == stream)).length + (v.isp.filter (fun d => 0x400 + d.port == stream)).length

/-- The order key of a camera or pixel-port slot, in a later tick so that it counts back within numbers: twice its opening,
ingest slots before record slots (R304, R520). -/
def Variant.slotKey (v : Variant) (e : RetSlot) (ticks : Nat) : Nat :=
  2 * (v.openedBy e.stream e.pick + (ticks + 8) * v.perTick e.stream - e.back) + (if e.core = 0xFE then 0 else 1)

/-- A list of numbers does not fall. -/
def rising : List Nat → Bool
  | a :: b :: r => decide (a ≤ b) && rising (b :: r)
  | _ => true

/-- The slots of a stream retire its stamps in order, within a tick and across its end (R520). -/
def Variant.streamOrder (v : Variant) (slots : List RetSlot) (stream : Nat) : Bool :=
  let own := slots.filter (fun e => e.kind == 0 && e.stream == stream)
  decide (0x800 ≤ stream) || rising (own.map (fun e => v.slotKey e 0) ++ own.map (fun e => v.slotKey e 1))

/-- Each opening of a stream has at least its hole allowance of ingest slots (R304). -/
def Variant.ingestOk (v : Variant) (slots : List RetSlot) (b : Binding) : Bool :=
  let keys := (slots.filter (fun e => e.kind == 0 && e.core == 0xFE && e.stream == b.stream)).map (fun e => v.slotKey e 0 / 2 % max 1 (v.perTick b.stream))
  (List.range (v.perTick b.stream)).all (fun k => decide (b.hAllow ≤ (keys.filter (fun x => x == k)).length))

/-- The record slots of one logical core in 250 consecutive picks belong to at most 250 stream frames (R379). -/
def Variant.faultBound (v : Variant) (t : Nat) (slots : List RetSlot) (l : Nat) : Bool :=
  let two := slots.map (fun e => (e, 0)) ++ slots.map (fun e => (e, 1))
  let firsts := fun (st i : Nat) => ((two.take (i + 1)).filter (fun x => x.1.stream == st && x.1.kind == 0 && x.1.first)).length
  let own := ((two.zipIdx).filter (fun (x, _) => x.1.kind == 0 && x.1.core == l)).map (fun (x, i) =>
    (x.1.pick + t * x.2, x.1.stream, if x.1.stream < 0x800 then v.slotKey x.1 x.2 else firsts x.1.stream i))
  own.all (fun a => decide (((own.filter (fun c => decide (a.1 ≤ c.1) && decide (c.1 < a.1 + 250))).map (fun c => c.2)).eraseDups.length ≤ 250))

/-- Step 12. -/
def Variant.orderOk (v : Variant) (t : Nat) : Bool :=
  let slots := v.slots t
  (List.range 256).all (fun r =>
    let own := v.ret.filter (fun e => e.ring == r)
    rising (own.map (fun e => e.pick)) &&
    (!v.rings.any (fun c => c.ring == r) ||
      ((own.filter (fun e => e.kind == 2)).length == 1 && ((own.getLast?.map (fun e => e.kind)) == some 2)))) &&
  slots.all (fun e => decide ((slots.filter (fun f => f.pick == e.pick)).length ≤ 32)) &&
  (v.ret.filter (fun e => e.kind == 0)).all (fun e => v.binds.any (fun b => b.stream == e.stream && b.ring == e.ring)) &&
  v.binds.all (fun b => v.streamOrder slots b.stream && v.ingestOk slots b) &&
  (v.cores.all (fun c => v.faultBound t slots c.core))

/-! ### Step 13: the threader (R237 to R240) -/

/-- What the threader knows of a variant. -/
def Variant.env (v : Variant) (im : Image) : ThEnv :=
  ⟨im.flags.testBit 0, im.tick, 1200 - im.slackMin, im.margin, im.descs, v.cores, v.slots im.tick⟩

/-- The first report over the roles of every variant (R238). -/
def Image.threader (im : Image) (given : Option ThrReport) : Option ThrReport :=
  im.variants.findSome? (fun v => v.cores.findSome? (fun c => (v.env im).report v.id given c))

/-! ### The load (R66) -/

/-- The index of the section that holds an offset of the image, 0xFFFF for none. -/
def sectionAt (ds : List DirEnt) (o : Nat) : Nat :=
  match (ds.zipIdx).find? (fun (d, _) => decide (d.offset ≤ o) && decide (o < d.offset + d.size)) with
  | some (_, i) => i
  | none => 0xFFFF

/-- The first uncorrectable line of DRAM that holds a byte of a range. -/
def State.firstBad (s : State) (b n : Nat) : Option Nat :=
  ((List.range ((b + n + 127) / 128 - b / 128)).map (fun i => b / 128 + i)).find? s.lineBad

/-- The profile that PWR_PROFILE allows (R39). -/
def State.profile (s : State) : Nat := s.fld Reg.PWR_PROFILE 0 8

/-- Steps 8 to 14 on an image whose header has passed. A hedge image, by its flags or because it lies in NVM, follows its own rules (R491). -/
def State.loadBody (s : State) (b : Nat) (hedge : Bool) (th : Option ThrReport) : LoadRes :=
  let size := s.le (b + 32) 8
  let tick := s.le (b + 12) 4
  let flagged := (s.le (b + 10) 2).testBit 2
  let dirAddrs := entriesAt (b + s.le (b + 40) 8) 32 (s.le (b + 24) 4)
  let ds := dirAddrs.map s.dirEnt
  match s.firstBad b size with
  | some line => .fail errDigest (if s.firstBad (b + s.le (b + 40) 8) (32 * s.le (b + 24) 4) = none then sectionAt ds (128 * line - b) else 0xFFFF) none
  | none =>
    if sha384 (s.bytes (b + 128) (size - 128)) ≠ s.bytes (b + 48) 48 then .fail errDigest 0xFFFF none
    else match (ds.zipIdx).find? (fun (d, _) => crc32c (s.bytes (b + d.offset) d.size) != d.crc) with
      | some (_, i) => .fail errDigest i none
      | none =>
        if !s.formatOk b size tick (hedge || flagged) ds dirAddrs then .fail errFormat 0 none
        else
          let im := s.readImage b ds
          if !im.variantsOk (s.le (b + 22) 2) s.clusters then .fail errVariants 0 none
          else if !s.resourceOk im (hedge || flagged) then .fail errResource 0 none
          else if !im.variants.all (fun v => v.orderOk tick) then .fail errOrder 0 none
          else match im.threader th with
            | some r => .fail errThreader r.core.toNat (some r)
            | none => if flagged && !hedge then .fail errHedge 0 none else .ok im

/-- The load checks of R66 on the image at b; hedge marks a copy read from NVM, whose bytes all lie in NVM. -/
def State.loadImage (s : State) (b : Nat) (hedge : Bool) (th : Option ThrReport) : LoadRes :=
  if b % 4096 ≠ 0 ∨ (hedge = false ∧ s.dramBytes < b + 128) then .fail errBus 0 none
  else if (s.firstBad b 128).isSome then .fail errDigest 0xFFFF none
  else if s.le b 4 ≠ 0x56414557 ∨ s.le (b + 6) 2 ≠ 128 then .fail errMagic 0 none
  else if crc32c (s.bytes b 124) ≠ s.le (b + 124) 4 then .fail errHeaderCrc 0 none
  else if !s.headerOk b then .fail errFormat 0 none
  else if hedge = false ∧ s.dramBytes < b + s.le (b + 32) 8 then .fail errBus 0 none
  else if s.le (b + 8) 2 ≠ s.fld Reg.SYS_PARTID 0 16 then .fail errPart 0 none
  else if s.profile < s.le (b + 16) 1 then .fail errProfile 0 none
  else s.loadBody b hedge th

end Sys2Proof.Machine
end

