-- ==== Sys2Proof/Machine/Measure.lean ====
section
/-! DEFINITION. Byte strings in consecutive registers, and the measurement registers (17_boot_and_firmware.md R442). -/

namespace Sys2Proof.Machine

/-- n bytes of consecutive registers from a register, lowest byte first. -/
def State.regBytes (s : State) (a n : Nat) : List Nat :=
  ((List.range ((n + 3) / 4)).flatMap (fun i => leBytes 4 (s.regN (a + 4 * i)))).take n

/-- Consecutive registers from bytes; a last word that the bytes do not fill ends in zeros. -/
def State.setRegBytes (s : State) (a : Nat) (bs : List Nat) : State :=
  (List.range ((bs.length + 3) / 4)).foldl (fun t i => t.setRegN (a + 4 * i) (leVal ((bs.drop (4 * i)).take 4))) s

/-- Extends measurement register i with a digest. -/
def State.extend (s : State) (i : Nat) (d : List Nat) : State :=
  s.setRegBytes (Reg.SEC_MEAS (16 * i)) (sha384 (s.regBytes (Reg.SEC_MEAS (16 * i)) 48 ++ d))

end Sys2Proof.Machine
end

