-- ==== Sys2Proof/Machine/Telemetry.lean ====
section
/-! DEFINITION. The telemetry latch of the object dictionary range 0x7000 (18_object_dictionary.md R475). -/

namespace Sys2Proof.Machine

/-- Key of a telemetry object value. -/
def telemKey (index sub : Nat) : Nat := 256 * (index - 0x7000) + sub

/-- Latches one value. -/
def State.setTelem (s : State) (index sub v : Nat) : State :=
  { s with telem := Tbl.set (fun _ => 0) s.telem (telemKey index sub) v }

/-- The latched value of an object. -/
def State.telemOf (s : State) (index sub : Nat) : Nat := Tbl.get (fun _ => 0) s.telem (telemKey index sub)

/-- Latches a counter that clears on read: the latch reads it (R16, R475). -/
def State.latchCount (s : State) (index sub a : Nat) : State := (s.setTelem index sub (s.regN a)).setRegN a 0

/-- Latches counters at consecutive words, from subindex 1 on. -/
def State.latchCounts (s : State) (index a n : Nat) : State :=
  (List.range n).foldl (fun t i => t.latchCount index (i + 1) (a + 4 * i)) s

/-- Key of a cumulative sum of a counter that clears on read. -/
def sumKey (index sub : Nat) : Nat := 2 ^ 24 + 256 * index + sub

/-- The latched sum of such a counter since START. -/
def State.sumOf (s : State) (index sub : Nat) : Nat := Tbl.get (fun _ => 0) s.telem (sumKey index sub)

/-- Sums begin again at START (R475). -/
def State.clearSums (s : State) : State := { s with telem := Tbl.clear (2 ^ 24) (2 ^ 25) s.telem }

/-- The latch reads a counter and adds it to its sum; the capture that the read releases, if any, loses its valid bit. -/
def State.latchSum (s : State) (index sub a : Nat) (cap : Option Nat) : State :=
  let t := { s with telem := Tbl.set (fun _ => 0) s.telem (sumKey index sub) ((s.sumOf index sub + s.regN a) % 2 ^ 32) }
  let t1 := t.setRegN a 0
  match cap with
  | some c => t1.putBit c 31 false
  | none => t1

/-- Latches the cumulative counters: 0x5002, 0x5010 + ch and 0x9005. -/
def State.latchSums (s : State) : State :=
  let s1 := ((s.latchSum 0x5002 1 Reg.RAS_CE_SRAM none).latchSum 0x5002 2 Reg.RAS_UE_SRAM none).latchSum 0x5002 3 Reg.RAS_HARD none
  let s2 := (s1.latchSum 0x5002 4 Reg.RAS_LOCKVIOL (some Reg.RAS_LOCKCAP_HI)).latchSum 0x5002 5 Reg.RAS_BUSERR (some Reg.RAS_BUSCAP_HI)
  let s3 := (List.range 16).foldl (fun t c =>
    (t.latchSum (0x5010 + c) 1 (Reg.DCH_CE c) (some (Reg.DCH_CEADDR_HI c))).latchSum (0x5010 + c) 2 (Reg.DCH_UE c) (some (Reg.DCH_UEADDR_HI c))) s2
  (List.range 4).foldl (fun t i => t.latchSum 0x9005 (i + 1) (Reg.MNET_RXOK + 4 * i) none) s3

/-- Latches every object of 0x7000 to 0x73FF with a tick field, and the sums (R475). -/
def State.latchTelemetry (s : State) (tick : Nat) : State :=
  let s0 := s.latchSums
  let s1 := (((s0.setTelem 0x7000 1 tick).setTelem 0x7000 2 (s0.reg64 Reg.WV_RECORDS_LO)).setTelem 0x7000 3
    (s0.reg64 Reg.WV_HOLES_LO)).setTelem 0x7000 4 (s0.reg64 Reg.WV_EMPTY_LO)
  let s2 := (s1.latchCount 0x7000 5 Reg.WV_OVRUN).latchCount 0x7000 6 Reg.WV_INWAIT
  let s3 := s2.latchCounts 0x7001 Reg.VDEC_DECODED 5
  let s4 := (s3.setTelem 0x7002 1 (s3.fld Reg.PWR_AVGS 0 24)).latchCount 0x7002 2 Reg.PWR_FSTEPS
  let s5 := (s4.latchCounts 0x7003 (Reg.NET_RXBAD 0) 11).latchCounts 0x7004 (Reg.NET_RXBAD 1) 11
  let s6 := (List.range 4).foldl (fun t n => t.latchCounts (0x7005 + n) (Reg.PIX_FRAMES n) 6) s5
  let s7 := (List.range 256).foldl (fun t r =>
    (t.setTelem (0x7100 + r) 1 (t.ringTick r).records).setTelem (0x7100 + r) 2 (t.ringTick r).holes) s6
  (List.range 512).foldl (fun t n => (List.range 4).foldl (fun u w =>
    u.setTelem (0x7200 + n) (w + 1) (u.regN (Reg.NET_SSTAT n w))) t) s7

/-- TELEMETRY_LATCH_IDLE: with no weave running, every 100 ms; the tick field holds 0xFFFFFFFF (R475). -/
def execTelemetryLatchIdle (s : State) : Out :=
  .next (if s.weaveState = 4 ∨ s.weaveState = 6 then s else s.latchTelemetry 0xFFFFFFFF)

end Sys2Proof.Machine
end

