-- ==== Sys2Proof/Machine/WeaveCtl.lean ====
section
/-! DEFINITION. The weave controller: selection of a variant, the commands of WV_CTRL, and the end of a load
(02_the_weave.md R61, R63 to R67; 08 R239; 15 R407). -/

namespace Sys2Proof.Machine

/-! ### The fault set and the variants (R61, R381) -/

/-- How degraded cluster g is: 0 no fault, 1 reduced, 2 lost; a cluster of a lost die counts as lost. -/
def degree (reduced lost dies g : Nat) : Nat :=
  if lost.testBit g || dies.testBit (g / 4) then 2 else if reduced.testBit g then 1 else 0

/-- Degradation of cluster g in the fault set. -/
def State.faultDegree (s : State) (g : Nat) : Nat :=
  degree (s.fld Reg.WV_FAULTSET 0 8) (s.fld Reg.WV_FAULTSET 8 8) (s.fld Reg.WV_FAULTSET 16 2) g

/-- Degradation of cluster g in a variant. -/
def Variant.degree (v : Variant) (g : Nat) : Nat := Machine.degree v.reduced v.lost v.dies g

/-- A variant covers the fault set; the hedge kind, and a variant that uses no cluster, cover nothing. -/
def State.covers (s : State) (v : Variant) : Bool :=
  v.id / 4096 != 15 && (List.range s.clusters).all (fun g => decide (s.faultDegree g ≤ v.degree g)) &&
    (List.range s.clusters).any (fun g => decide (v.degree g < 2))

/-- Degradation sum of a variant. -/
def State.degreeSum (s : State) (v : Variant) : Nat := ((List.range s.clusters).map v.degree).foldl (· + ·) 0

/-- Of two variants, the one with the smaller degradation sum, then the lower id. -/
def State.better (s : State) (a b : Variant) : Variant :=
  if s.degreeSum b < s.degreeSum a ∨ (s.degreeSum b = s.degreeSum a ∧ b.id < a.id) then b else a

/-- The variant of an image that the fault set selects (R61). -/
def State.select (s : State) (im : Image) : Option Variant :=
  (im.variants.filter s.covers).foldl (fun best v => match best with
    | none => some v
    | some b => some (s.better b v)) none

/-- WV_VARIANT.pending: the variant that the next tick boundary selects; the active one when no change is due. -/
def State.pendingVariant (s : State) : Nat :=
  if s.weaveState = 4 ∧ s.bit Reg.WV_STATUS 6 = false ∧ s.weave.selected ≠ s.regN Reg.WV_FAULTSET then
    match s.weave.active.bind s.select with
    | some v => v.id
    | none => s.variantId
  else s.fld Reg.WV_VARIANT 16 16

/-! ### Power gating (R407) -/

/-- The units an image needs: the clusters of its core sections with their nine cores, and the decode cores of its
timetables with the spare. -/
def Image.units (im : Image) (without : Nat → Bool) : List Nat :=
  let cl := (List.range 8).filter (fun g => !without g && im.variants.any (fun v => v.cores.any (fun c => c.core / 8 == g)))
  let dec := (List.range 17).filter (fun d => im.variants.any (fun v => v.dec.any (fun e => e.decoder == d || d == 16)))
  cl ++ cl.flatMap (fun g => (List.range 9).map (fun i => 8 + physCore g i)) ++ dec.map (fun d => 80 + d)

/-- A number in its place in a rising list. -/
def insertNat (n : Nat) : List Nat → List Nat
  | [] => [n]
  | x :: xs => if n < x then n :: x :: xs else if n = x then x :: xs else x :: insertNat n xs

/-- Requests the wake of units that are neither awake, waking nor waiting. -/
def State.requestWakes (s : State) (us : List Nat) : State :=
  let new := us.filter (fun u => !(s.power.awake.contains u || s.power.waking.contains u))
  let q := new.foldl (fun l u => insertNat u l) s.power.queue
  ({ s with power := { s.power with queue := q } }).setFld Reg.PWR_STATUS 5 7 (min q.length 127)

/-- The units that the loaded images and the hedge weave need now. -/
def State.neededUnits (s : State) : List Nat :=
  let w := s.weaveState
  let gone := fun g => match s.variant with | some v => w == 4 && v.degree g == 2 | none => false
  if w = 0 ∨ w = 7 then []
  else if w = 6 then s.weave.hedgeCluster :: (List.range 9).map (fun i => 8 + physCore s.weave.hedgeCluster i)
  else (match s.weave.active with | some im => im.units gone | none => []) ++
    (match s.weave.standby with | some im => im.units (fun _ => false) | none => [])

/-- Gates every unit that is no longer needed. -/
def State.gateUnused (s : State) : State :=
  let need := s.neededUnits
  let keep := fun (l : List Nat) => l.filter (fun u => need.contains u)
  let q := keep s.power.queue
  ({ s with power := { s.power with awake := keep s.power.awake, queue := q, waking := keep s.power.waking } }).setFld Reg.PWR_STATUS 5 7 (min q.length 127)

/-! ### States and commands (R63 to R65, R67) -/

/-- Sets the timebase; the pick number is the timebase divided by 1,000 (R43). -/
def State.setTime (s : State) (t : Nat) : State :=
  let s1 := (s.setReg64 Reg.TBS_TIME_LO (t % 2 ^ 64)).setReg64 Reg.WV_PICK_LO (t % 2 ^ 64 / 1000)
  let w := s1.weaveState
  s1.setRegN Reg.WV_PICK_IN_TICK (if (w = 4 ∨ w = 6) ∧ s1.weave.tickLen ≠ 0 then s1.offset % s1.weave.tickLen else 0)

/-- What is left of a timebase step is applied at once (R312). The steward logs each change of state (18 Table, Steward event codes). -/
def State.applyRest (s : State) : State :=
  let t := ((s.time : Int) + s.stepRest.tdiv 5) % 2 ^ 64
  (({ s with stepRest := 0 }).setTime t.toNat).putBit Reg.TBS_STATUS 0 false

/-- Sets WV_STATUS.state; when the state leaves RUNNING or HEDGE for one in which no weave depends on pick numbers, what is
left of a timebase step is applied at once (R312). The steward logs each change of state (18 Table, Steward event codes). -/
def State.setWeave (s : State) (st : Nat) : State :=
  let was := s.weaveState
  let s1 := s.setFld Reg.WV_STATUS 0 3 st
  let s2 := if (was = 4 ∨ was = 6) ∧ (st = 0 ∨ st = 2 ∨ st = 5 ∨ st = 7) ∧ s.stepRest ≠ 0 then s1.applyRest else s1
  if was = st then s2 else s2.logEvent 0x601 0 0x51 st 0

/-- The active and the pending variant become variant id; the steward logs a change. -/
def State.setVariant (s : State) (id : Nat) : State :=
  let s1 := s.setRegN Reg.WV_VARIANT (id + id * 65536)
  if s.variantId = id then s1 else s1.logEvent 0x602 1 0x51 id 0

/-- Sets an interrupt cause of WV_IRQ_STATUS. -/
def State.weaveIrq (s : State) (i : Nat) : State := s.sticky Reg.WV_IRQ_STATUS i

/-- A rejected command (R63). -/
def State.cmdRejected (s : State) : State := s.weaveIrq 10

/-- Sets the pending bits of WV_STATUS: replace and stop (R63: the later one replaces the pending one). -/
def State.setPending (s : State) (replace stop : Bool) : State :=
  (s.putBit Reg.WV_STATUS 4 replace).putBit Reg.WV_STATUS 5 stop

/-- A load begins: WV_IMG is sampled, the threader reports are not valid, and the units of the image begin to wake
(R66, R239, R407). -/
def State.beginLoad (s : State) (standby : Bool) : State :=
  let a := s.reg64 Reg.WV_IMG_LO % 2 ^ 40
  let s1 := (List.range s.clusters).foldl (fun t g => t.putBit (Reg.CLU_THRREP g 7) 0 false) s
  let s2 := { s1 with weave := { s1.weave with loadAddr := a, loadStandby := standby } }
  match s2.loadImage a false none with
  | .ok im => s2.requestWakes (im.units (fun _ => false))
  | .fail _ _ _ => s2

/-- WV_CTRL.cmd = LOAD. -/
def State.cmdLoad (s : State) : State :=
  let w := s.weaveState
  if w = 0 ∨ w = 2 ∨ w = 5 ∨ w = 7 then
    (({ s with weave := { s.weave with active := none } }).setWeave 1).beginLoad false
  else if w = 4 ∧ s.bit Reg.WV_STATUS 7 = false ∧ s.bit Reg.WV_STATUS 4 = false then
    ((({ s with weave := { s.weave with standby := none } }).putBit Reg.WV_STATUS 3 false).sticky Reg.WV_STATUS 7).beginLoad true
  else s.cmdRejected

/-- WV_CTRL.cmd = START (R67): the variant of the first tick is selected from the fault set as it stands. -/
def State.cmdStart (s : State) : State :=
  let w := s.weaveState
  let at_ := s.reg64 Reg.WV_START_LO
  if (w = 2 ∨ w = 5) ∧ (at_ = 0 ∨ s.time + 16000 ≤ 1000 * at_) then
    let p := if at_ = 0 then (s.time + 16000 + 999) / 1000 else at_
    let s1 := ({ s with weave := { s.weave with startPick := p } }).clearSums.setWeave 3
    match s1.weave.active.bind s1.select with
    | some v => s1.setFld Reg.WV_VARIANT 16 16 v.id
    | none => s1
  else s.cmdRejected

/-- WV_CTRL.cmd = STOP. -/
def State.cmdStop (s : State) : State :=
  if s.weaveState = 3 then (s.setWeave 2).setFld Reg.WV_VARIANT 16 16 s.variantId
  else if s.weaveState = 4 then s.setPending false true
  else s.cmdRejected

/-- WV_CTRL.cmd = REPLACE. -/
def State.cmdReplace (s : State) : State :=
  if s.weaveState = 4 ∧ s.bit Reg.WV_STATUS 3 then s.setPending true false else s.cmdRejected

/-- WV_CTRL.cmd = ABANDON: discards the standby image, loaded or loading, and cancels a pending STOP or REPLACE. -/
def State.cmdAbandon (s : State) : State :=
  if s.weaveState = 4 then
    let s1 := { s with weave := { s.weave with standby := none } }
    (((s1.putBit Reg.WV_STATUS 3 false).putBit Reg.WV_STATUS 7 false).setPending false false).gateUnused
  else s.cmdRejected

/-- Runs a command unless WV_CTRL.lock makes it a write to a locked field (R65). -/
def State.unlessLocked (s : State) (master : Nat) (t : State) : State :=
  if s.bit Reg.WV_CTRL 8 then s.lockViolation Reg.WV_CTRL master else t

/-- WEAVE_LOAD. -/
def execWeaveLoad (master : BitVec 8) (s : State) : Out := .next (s.unlessLocked master.toNat s.cmdLoad)

/-- WEAVE_START. -/
def execWeaveStart (s : State) : Out := .next s.cmdStart

/-- WEAVE_STOP. -/
def execWeaveStop (master : BitVec 8) (s : State) : Out := .next (s.unlessLocked master.toNat s.cmdStop)

/-- WEAVE_REPLACE. -/
def execWeaveReplace (master : BitVec 8) (s : State) : Out := .next (s.unlessLocked master.toNat s.cmdReplace)

/-- WEAVE_ABANDON. -/
def execWeaveAbandon (master : BitVec 8) (s : State) : Out := .next (s.unlessLocked master.toNat s.cmdAbandon)

/-- WEAVE_LOCK: WV_CTRL.lock is set until the next reset that clears the block. -/
def execWeaveLock (s : State) : Out := .next (s.sticky Reg.WV_CTRL 8)

/-! ### The end of a load (R66, R239) -/

/-- The threader report in CLU_THRREP0 to CLU_THRREP7 of the rejected core's cluster. -/
def State.putReport (s : State) (r : ThrReport) : State :=
  let g := r.core.toNat / 8
  let w := fun (i v : Nat) (t : State) => t.setRegN (Reg.CLU_THRREP g i) v
  w 0 (r.core.toNat + r.check.toNat * 256 + r.variant.toNat * 0x10000) s |> w 1 r.index.toNat |> w 2 r.pick.toNat |>
    w 3 r.engine.toNat |> w 4 r.needed.toNat |> w 5 r.allowed.toNat |> w 6 r.detail.toNat |> w 7 1

/-- SEC_MEAS5 is extended with the SHA-384 of the header of a loaded image (17 R442). -/
def State.measureImage (s : State) (a : Nat) : State := s.extend 5 (sha384 (s.bytes a 128))

/-- LOAD_COMPLETE: the checks end. report is what the threader finds on the paths of the core sections; the checks that need
no path are evaluated here. It waits for the wakes of the image's units. -/
def execLoadComplete (report : Option ThrReport) (s : State) : Out :=
  .next (
    let standby := s.bit Reg.WV_STATUS 7
    if (s.weaveState = 1 ∨ standby = true) ∧ s.power.queue = [] ∧ s.power.waking = [] then
      let s1 := s.putBit Reg.WV_STATUS 7 false
      match s1.loadImage s1.weave.loadAddr false report with
      | .fail code wher rep =>
        let s2 := s1.setRegN Reg.WV_LOAD_ERR (code + wher % 65536 * 65536)
        let s3 := match rep with | some r => s2.putReport r | none => s2
        ((if standby then s3 else s3.setWeave 7).weaveIrq 1).gateUnused
      | .ok im =>
        let s2 := ((s1.setRegN Reg.WV_LOAD_ERR 0).weaveIrq 0).measureImage im.addr
        if standby then ({ s2 with weave := { s2.weave with standby := some im } }).sticky Reg.WV_STATUS 3
        else ({ s2 with weave := { s2.weave with active := some im } }).setWeave 2
    else s)

end Sys2Proof.Machine
end

