-- ==== Sys2Proof/Machine/WeaveRun.lean ====
section
/-! DEFINITION. The running weave: the first tick of an image, the tick boundary and its actions, stop, replacement and
variant switch, and hedge mode (02_the_weave.md R45, R46, R61, R67 to R70; 14_resilience_and_failover.md R382 to R385). -/

namespace Sys2Proof.Machine

/-! ### Parts of a start -/

/-- The device can use DRAM: it is initialised and no channel is faulty (R383). -/
def State.dramUsable (s : State) : Bool := s.bit Reg.DMC_STATUS 0 && s.regN Reg.DMC_FAULT == 0

/-- Writes the descriptors section into the stream descriptor table (R175). -/
def State.installDescs (s : State) (im : Image) : State :=
  let b := s.reg64 Reg.SYS_SDT_BASE_LO % 2 ^ 40
  im.descs.foldl (fun t e =>
    let a := b + 64 * e.1
    if t.dramBytes < a + 64 then t else (t.setBytes a e.2).healLines ((List.range 64).map (fun i => a + i))) s

/-- A role whose core is HALTED when a weave starts has no core from then on; every other mark of a lost role is cleared, and
the fault set follows (R235). -/
def State.recheck (s : State) : State :=
  let s0 := { s with weave := { s.weave with noCore := [], serving := [] } }
  let s1 := (List.range (8 * s.clusters)).foldl (fun t l =>
    let lost := match t.physOf l with | some p => t.coreState p == 3 | none => false
    let u := (t.putBit (Reg.CLU_ROLE (l / 8) (l % 8)) 17 lost).putBit (Reg.CLU_STATUS (l / 8)) (6 + l % 8) lost
    if lost then u.serveHoles l else u) s0
  (List.range s.clusters).foldl (fun t g => t.updateFaultSet g) s1

/-- The carry state of role l holds no previous output and has no shadow (R57). -/
def State.clearCarry (s : State) (l : Nat) : State :=
  let lo := regionKey l 0
  let hi := regionKey (l + 1) 0
  { s with weave := { s.weave with
      carryValid := Tbl.clear lo hi s.weave.carryValid,
      carryCount := Tbl.clear lo hi s.weave.carryCount,
      openedSince := s.weave.openedSince.filter (fun k => !(decide (lo ≤ k) && decide (k < hi))),
      shadowMark := Tbl.set (fun _ => none) s.weave.shadowMark l none,
      shadowBusy := s.weave.shadowBusy.filter (fun k => k != l) } }

/-- Both parameter sets of role l take initial values (R220). -/
def State.initParams (s : State) (l : Nat) (ps : List Nat) : State :=
  let put := fun (t : Tbl Word) => (ps.zipIdx).foldl (fun u (v, i) => Tbl.set (fun _ => 0) u (64 * l + i) (BitVec.ofNat 32 v)) t
  { s with pshadow := put s.pshadow, pactive := put s.pactive }

/-- CORE_LSLOTS: the stream slots that no instruction of a role program names. -/
def freeSlots (weft : List Nat) : Nat :=
  let used := weft.flatMap (fun w => match decodeWeft (.woven 0) w with | some i => slotsOf i | none => [])
  (List.range 16).foldl (fun m i => if used.contains i then m else m + 2 ^ i) 0

/-- The native program of a role in program memory: native code is not described, so its bytes are free values. -/
def State.putNative (s : State) (p : Nat) (sec : CoreSec) : State :=
  s.putFree (coreBase p + progOff) (min 0x40000 (16 * sec.weft.length))

/-- Prepares the core that holds a role for the variant that now runs: program, mode 0b00 and no valid weight tile (R93), free
stream slots; parameters at a start; carry state where the role's section is a new one (R57). -/
def State.installRole (s : State) (start : Bool) (old : Option Variant) (c : CoreSec) : State :=
  let same : Bool := match old with | some v => v.cores.find? (fun k => k.core == c.core) == some c | none => false
  let s1 := if start then s.initParams c.core c.params else s
  let s2 := if same then s1 else s1.clearCarry c.core
  match s2.physOf c.core with
  | none => s2
  | some p =>
    let s3 := ((s2.putNative p c).setFld (Reg.CORE_GANG p) 0 2 0).applyGang p
    s3.setFld (Reg.CORE_LSLOTS p) 0 16 (freeSlots c.weft)

/-- The cluster caches for a variant: the weight store takes the ways it needs and its contents become undefined, the read
cache is empty (R159, R161). -/
def State.installCaches (s : State) (v : Variant) : State :=
  let s1 := (List.range s.clusters).foldl (fun t g => (t.setFld (Reg.CLU_CCCFG g) 0 4 (v.wsWays g)).setFld (Reg.CLU_CCCFG g) 4 4 (s.cacheWays g - v.wsWays g)) s
  { s1 with ccache := [], wsFilled := [] }

/-- The woven context restarts at index 0: no loop, no call, no open region (R223). -/
def Core.restart (c : Core) : Core :=
  let x := { c.woven with pc := 0, depth := 0, sp := 0 }
  { c with woven := x, lastWait := 0, waitN := 0, held := none, syncAt := none, region := none }

/-- A PARKED core that holds a role of the weave is RUNNING from the start pick (R218); it owes no earlier acknowledgement. -/
def State.startCore (s : State) (l pick : Nat) : State :=
  match s.physOf l with
  | none => s
  | some p =>
    if s.coreState p = 0 then
      (s.modCore p (fun c => { c.restart with acked := pick, landed := [], staleAt := [] })).setCoreState p 1 0
    else s

/-- The offsets of a port's change map and statistics block, from the stream binding (R329), and the in-line port of the
weave (ISP_CFG). -/
def State.installPorts (s : State) (v : Variant) : State :=
  let s1 := (List.range 4).foldl (fun t n => match v.binds.find? (fun b => b.stream == 0x400 + n) with
    | some b => (t.setRegN (Reg.ISP_MAPOFF n) b.mapOff).setRegN (Reg.ISP_STATOFF n) b.statOff
    | none => t) s
  match v.isp.find? (fun e => e.kind == 0) with
  | some e => s1.setRegN Reg.ISP_CFG (e.port + 4 + e.rate * 256)
  | none => s1.setRegN Reg.ISP_CFG 0

/-! ### The beginning of a tick (R46 actions 3 to 6) -/

/-- Action 4: the shadow parameter set of each logical core not held by CLU_PHOLD is copied into its active set (R220). -/
def State.swapParams (s : State) : State :=
  (List.range (8 * s.clusters)).foldl (fun t l =>
    if t.bit (Reg.CLU_PHOLD (l / 8)) (l % 8) then t
    else { t with pactive := (List.range 64).foldl (fun u i =>
      Tbl.set (fun _ => 0) u (64 * l + i) (Tbl.get (fun _ => 0) t.pshadow (64 * l + i))) t.pactive }) s

/-- A failover of role l is in progress. -/
def State.failingOver (s : State) (l : Nat) : Bool :=
  match s.failover (l / 8) with
  | some f => f.role == l
  | none => false

/-- Core p at a tick boundary: no cached descriptor or role-table entry (action 5), no carry decision, and queue entries that
no slot removed are discarded (R263). -/
def State.tickCore (s : State) (p : Nat) : State :=
  let left := (s.core p).queues.any (fun e => !e.2.isEmpty)
  let s1 := s.modCore p (fun c => { c with dcache := [], rcache := [], decided := [], regionPoison := [], queues := [] })
  s1.stickyIf left (Reg.CORE_OPSTAT p) 0

/-- R223 for role l: the context of its core restarts, unless the core is HALTED or waits for the end of a failover. -/
def State.restartRole (s : State) (l : Nat) : State :=
  match s.physOf l with
  | none => s
  | some p =>
    let st := s.coreState p
    if st = 3 ∨ s.failingOver l = true ∨ (s.roleSec l).isNone then s
    else
      let s1 := s.modCore p Core.restart
      if st = 1 ∨ st = 2 then s1.setCoreState p 1 0 else s1

/-- Action 6 for role l: the completion mark is cleared and the shadow takes the carry state as it stands at the boundary; a
role without a running core is not shadowed (R162, R380). -/
def State.beginShadow (s : State) (l : Nat) : State :=
  match s.physOf l, s.roleSec l with
  | some p, some sec =>
    if (s.coreState p = 1 ∨ s.coreState p = 2) ∧ s.failingOver l = false then
      let bs := sec.carry.flatMap (fun r => s.bytes (coreBase p + r.offset) r.size)
      let s1 := s.setBytes (shadowBase l) bs
      let opened := s1.weave.openedSince.filter (fun k => decide (k < regionKey l 0) || decide (regionKey (l + 1) 0 ≤ k))
      let busy := l :: s1.weave.shadowBusy.filter (fun k => k != l)
      let marks := Tbl.set (fun _ => none) s1.weave.shadowMark l none
      { s1 with weave := { s1.weave with shadowMark := marks, shadowBusy := busy, openedSince := opened } }
    else s
  | _, _ => s

/-- A tick begins at a pick, with a frame tick number: actions 3 to 6 of R46 and the restart of R223. slots is the number of
retirement slots of the tick that ends, beyond which absorbed slots lie in the new one. -/
def State.beginTick (s : State) (pick tick slots : Nat) : State :=
  let ab := (s.weave.absorbed.filter (fun i => decide (slots ≤ i))).map (fun i => i - slots)
  let s1 := { s with weave := { s.weave with tickPick := pick, slot := 0, absorbed := ab, ringTick := [], barriers := [] } }
  let s2 := (s1.setRegN Reg.WV_TICK (tick % 2 ^ 32)).setTime s1.time
  let s3 := s2.swapParams
  let s4 := (List.range (9 * s.clusters)).foldl (fun t p => t.tickCore p) s3
  let s5 := { s4 with vdec := { s4.vdec with dcache := [], opened := [] }, isp := { s4.isp with opened := [] } }
  let ls := List.range (8 * s.clusters)
  let s6 := ls.foldl (fun t l => t.restartRole l) s5
  (ls.foldl (fun t l => t.beginShadow l) s6).weaveIrq 3

/-! ### Frame buffers (R307) -/

/-- Hold of a pool of the running image. -/
def State.poolHold (s : State) (pool : Nat) : Nat :=
  match s.weave.active.bind (fun im => im.pools.find? (fun p => p.id == pool)) with
  | some p => p.hold
  | none => 1

/-- A tick boundary passes for the frame buffers: those that nothing holds any longer return. -/
def State.tickBuffers (s : State) : State :=
  let l := (s.vdec.bufs.map (fun b => { b with ticks := b.ticks + 1 })).filter (fun b =>
    b.prev || b.ref || b.held || decide (b.ticks < s.poolHold b.pool))
  { s with vdec := { s.vdec with bufs := l } }

/-- The buffers that stamped frames of pixel ports hold are released. -/
def State.releaseFrames (s : State) (fs : List Stamped) : State :=
  let gone := fs.filterMap (fun f => f.buffer)
  let l := s.vdec.bufs.map (fun b => if gone.contains (b.pool, b.index) then { b with held := false } else b)
  { s with vdec := { s.vdec with bufs := l } }

/-! ### Stamped, unconsumed frames (R68, R69, R298) -/

/-- Ingest state of a stream. -/
def State.recv (s : State) (n : Nat) : Recv := Tbl.get (fun _ => Recv.init) s.ingest.recv n

/-- Sets the ingest state of a stream. -/
def State.setRecv (s : State) (n : Nat) (r : Recv) : State :=
  { s with ingest := { s.ingest with recv := Tbl.set (fun _ => Recv.init) s.ingest.recv n r } }

/-- Nothing needs the data of some frames of a stream any longer; ring space is freed in frame order (R300). -/
def State.endKept (s : State) (n : Nat) (frames : List Nat) : State :=
  let r := s.recv n
  let k := (r.kept.map (fun (f, len, e) => (f, len, e || frames.contains f))).dropWhile (fun (_, _, e) => e)
  s.setRecv n { r with kept := k }

/-- Takes every stamped, unconsumed frame of the streams that a condition selects, in increasing stream and frame, as holes on
the ring that ringOf names; a frame without a ring is dropped. -/
def State.takePending (s : State) (sel : Nat → Bool) (ringOf : Nat → Stamped → Option Nat) (reason : Nat) : List DueHole × State :=
  let mine := s.ingest.pend.filter (fun e => sel e.1)
  let hs := mine.flatMap (fun e => e.2.filterMap (fun f =>
    (ringOf e.1 f).map (fun r => (⟨r, e.1, f.frame, 0, f.capture, reason⟩ : DueHole))))
  let s1 := s.releaseFrames (mine.flatMap (fun e => e.2))
  let s2 := mine.foldl (fun t e => t.endKept e.1 (e.2.map (fun f => f.frame))) s1
  (hs, { s2 with ingest := { s2.ingest with pend := s2.ingest.pend.filter (fun e => !sel e.1) } })

/-- The ring on which a variant retires a stream. -/
def Variant.ringOf (v : Variant) (stream : Nat) : Option Nat := (v.binds.find? (fun b => b.stream == stream)).map (fun b => b.ring)

/-- The streams that a variant binds. -/
def Variant.streams (v : Variant) : List Nat := v.binds.map (fun b => b.stream)

/-- A park is requested of every core that holds a role (R68, R69, R383). -/
def State.parkRoles (s : State) : State :=
  (List.range (8 * s.clusters)).foldl (fun t l => match t.physOf l with
    | some p => t.requestPark p
    | none => t) s

/-- Resident loose jobs end with WEAVE_CHANGE unless their save has completed (R289). -/
def State.endResident (s : State) : State := s.endJobs endWeaveChange (fun j => j.resident)

/-! ### Hedge mode (R382 to R385) -/

/-- Addresses of the two hedge image copies in the NVM window. -/
def hedgeCopies : List Nat := [0x1401250000, 0x1401450000]

/-- The first hedge image copy that is valid (R383, R491). -/
def State.hedgeImage (s : State) : Option Image :=
  hedgeCopies.findSome? (fun b => match s.loadImage b true none with
    | .ok im => if s.le (b + 32) 8 ≤ 0x200000 ∧ im.flags.testBit 2 then some im else none
    | .fail _ _ _ => none)

/-- A core of cluster g did not park in time: the cluster counts as lost for the hedge weave (R383). -/
def State.parkFailed (s : State) (g : Nat) : Bool :=
  (List.range 9).any (fun i => s.coreState (physCore g i) == 3 && s.fld (Reg.CORE_HALT_REASON (physCore g i)) 0 8 == haltParkAbort)

/-- The lowest-numbered cluster that is not lost and has a variant of the hedge image, with that variant. -/
def State.hedgeVariant (s : State) (im : Image) : Option (Nat × Variant) :=
  (List.range s.clusters).findSome? (fun g =>
    if s.faultDegree g = 2 ∨ s.parkFailed g = true then none
    else (im.variants.find? (fun v => !v.cores.isEmpty && v.cores.all (fun c => c.core / 8 == g))).map (fun v => (g, v)))

/-- The window ways that a hedge image declares: those that hold ring 255 and its pools. -/
def Image.hedgeWays (im : Image) : Nat :=
  let tops := (im.variants.flatMap (fun v => v.rings)).map (fun c => c.base + 64 * 2 ^ c.log2) ++
    (im.pools.filter (fun p => decide (windowBase ≤ p.base))).map (fun p => p.base + p.count * p.size)
  min 16 (max 8 ((tops.foldl max windowBase - windowBase + 0x1FFFFF) / 0x200000))

/-- The frames n, n + 1, … of a stream from f up to the frame before e, as entry holes. -/
def entryFrames (stream : Nat) : Nat → Nat → List DueHole
  | _, 0 => []
  | f, n + 1 => ⟨255, stream, f, 0, 0, holeHedgeEntry⟩ :: entryFrames stream ((f + 1) % 2 ^ 32) n

/-- The entry holes of one stream (R384). -/
def State.entryHoles (s : State) (stream : Nat) : List DueHole :=
  let next := Tbl.get (fun _ => 0) s.weave.nextFrame stream
  match Tbl.get (fun _ => none) s.weave.lastStamp stream with
  | none => entryFrames stream 0 next
  | some (f, item) =>
    let after := (f + 1) % 2 ^ 32
    (match item with | some i => [⟨255, stream, f, i, 0, holeHedgeEntry⟩] | none => []) ++
      entryFrames stream after ((next + 2 ^ 32 - after) % 2 ^ 32)

/-- An entry hole with the capture time of its frame, when the frame is known. -/
def State.withCapture (s : State) (h : DueHole) : DueHole :=
  let fs := Tbl.get (fun _ => []) s.ingest.pend h.stream
  let opened := (s.openingsOf h.stream).filterMap (fun o => o.chosen)
  match fs.find? (fun f => f.frame == h.frame), opened.find? (fun f => f.frame == h.frame) with
  | some f, _ => { h with capture := f.capture }
  | none, some f => { h with capture := f.capture }
  | none, none => h

/-- The rings that still receive FRAME_END of the current tick at hedge entry. -/
def State.openRings (s : State) : List Nat :=
  if s.weave.stopping then s.weave.dueEnd
  else match s.weave.before, s.variant with
    | some (im, _), _ => (List.range 64).filter (fun r => im.variants.any (fun v => v.rings.any (fun c => c.ring == r)))
    | none, some v =>
      let past := (v.slots s.weave.tickLen).take s.weave.slot
      (List.range 64).filter (fun r => v.rings.any (fun c => c.ring == r) && !past.any (fun e => e.kind == 2 && e.ring == r))
    | none, none => []

/-- Step 5 of R383 and RAS_HEDGE: the variant for the lowest-numbered cluster that is not lost, or failed. -/
def State.hedgeSelect (s : State) (im : Option Image) (cause : Nat) : State :=
  match im.bind s.hedgeVariant with
  | some (g, v) =>
    let s1 := { s with weave := { s.weave with hedgeCluster := g } }
    (s1.setVariant v.id).setRegN Reg.RAS_HEDGE (cause + 16 * g)
  | none =>
    ({ s with weave := { s.weave with hedgeAt := none, active := none } }).setRegN Reg.RAS_HEDGE (cause + 8)

/-- Hedge entry (R382, R383 steps 1 to 6). -/
def State.hedgeEntry (s : State) (cause : Nat) : State :=
  if s.weaveState = 6 then s
  else
    -- step 1
    let streams := s.weave.bound
    let s1 := s.endJobs endHedge (fun _ => true)
    -- step 2
    let s2 := (List.range s.clusters).foldl (fun t g => (t.setFailover g none).putBit (Reg.CLU_STATUS g) 5 false) s1.parkRoles
    -- step 3
    let s3 := if s.weaveState = 4 ∧ s.dramUsable = true then s.openRings.foldl (fun t r => t.retireEnd r t.time) s2 else s2
    let holes := (streams.foldl (fun l n => insertNat n l) []).flatMap (fun n => (s3.entryHoles n).map s3.withCapture)
    let s4 := (((((s3.setWeave 6).setFld Reg.WV_STATUS 3 5 0).weaveIrq 9).logEvent 0x511 3 0x40 cause 0).sticky Reg.RAS_STATUS 1).putBit
      Reg.DMC_CFG 3 false
    let s5 := { s4 with
      weave := { s4.weave with
        standby := none, stopping := false, before := none, bound := [], dueEnd := [], openings := [], internal := [], due := [] },
      vdec := { s4.vdec with runs := [] },
      isp := { s4.isp with pass := none } }
    let s5 := (s5.takePending (fun _ => true) (fun _ _ => none) 0).2
    let im := s5.hedgeImage
    match im.bind s5.hedgeVariant, im with
    | some (_, v), some i =>
      -- steps 4 to 6
      let s6 := (s5.setWindow i.hedgeWays).hedgeSelect im cause
      let s7 := v.rings.foldl (fun t c => t.ringConfigure c) s6
      ({ s7 with weave := { s7.weave with active := some i, tickLen := i.tick, hedgeAt := some (s.pickNow + 20000), due := holes } }).gateUnused
    | _, _ => (s5.hedgeSelect none cause).gateUnused

/-- WV_CTRL.cmd = HEDGE. -/
def State.cmdHedge (s : State) : State :=
  let w := s.weaveState
  if w = 2 ∨ w = 3 ∨ w = 4 ∨ w = 5 then s.hedgeEntry 4 else s.cmdRejected

/-- WEAVE_HEDGE. -/
def execWeaveHedge (s : State) : Out := .next s.cmdHedge

/-! ### The first tick of a weave (R67, R69, R70) -/

/-- A pixel port has processed no frame since START, a changeover or an enable (R328). -/
def unseen (t : Tbl PixSt) (n : Nat) : Tbl PixSt :=
  Tbl.set (fun _ => PixSt.init) t n { Tbl.get (fun _ => PixSt.init) t n with seen := false }

/-- What a start and the end of a changeover do alike: variant, caches, roles, ports, stream and decoder state. -/
def State.install (s : State) (im : Image) (v : Variant) (pick : Nat) : State :=
  let s1 := { s with
    weave := { s.weave with
      active := some im, tickLen := im.tick, tickPick := pick, selected := s.regN Reg.WV_FAULTSET, bound := v.streams, before := none,
      openings := [], internal := [], hints := [], hintLevel := [], absorbed := [], slot := 0 },
    vdec := { s.vdec with runs := [], dcache := [], prevOut := [], seen := [], bufs := [], took := [] },
    isp := { s.isp with pass := none, ports := (List.range 4).foldl unseen s.isp.ports } }
  let s2 := (s1.kickRails.setVariant v.id).putBit Reg.DMC_CFG 3 (im.flags.testBit 1)
  let s3 := (s2.installCaches v).installPorts v
  let s4 := v.cores.foldl (fun t c => t.installRole true none c) s3
  v.cores.foldl (fun t c => t.startCore c.core pick) s4

/-- The first tick of an image: at the start pick, or at the end of a changeover tick. -/
def State.launch (s : State) (im : Image) (pick tick : Nat) (start : Bool) : State :=
  let s1 := s.recheck
  match s1.select im with
  | none => (s1.setRegN Reg.WV_TICK ((tick + 2 ^ 32 - 1) % 2 ^ 32)).hedgeEntry 3
  | some v =>
    let s2 := if start then
        let s1 := (s1.takePending (fun _ => true) (fun _ _ => none) 0).2
        let t0 := { s1 with weave := { s1.weave with nextFrame := [], lastStamp := [] } }
        let t1 := ((t0.setReg64 Reg.WV_RECORDS_LO 0).setReg64 Reg.WV_HOLES_LO 0).setReg64 Reg.WV_EMPTY_LO 0
        (t1.ringsStart (im.rings v)).installDescs im
      else s1
    (((s2.setWeave 4).install im v pick).beginTick pick tick 0).weaveIrq 2

/-- WEAVE_START_PICK: the start pick is reached and the first tick of the armed weave begins. -/
def execWeaveStartPick (s : State) : Out :=
  .next (match s.weave.active with
    | some im =>
      if s.weaveState = 3 ∧ s.weave.startPick ≤ s.pickNow then
        s.launch im s.weave.startPick (s.regN Reg.WV_TICK_BASE) true
      else s
    | none => s)

/-- HEDGE_WEAVE_START: the hedge weave starts at the first pick at least 20,000 picks after entry, with the next frame tick
number (R383 step 7). -/
def execHedgeWeaveStart (s : State) : Out :=
  .next (match s.weave.hedgeAt with
    | none => s
    | some at_ =>
      if s.weaveState = 6 ∧ at_ ≤ s.pickNow then
        let s1 := s.weave.due.foldl (fun t h => t.retireHole h) s
        let s2 := { s1 with weave := { s1.weave with due := [], hedgeAt := none } }
        let im := s2.weave.active
        let s3 := s2.hedgeSelect im (s2.fld Reg.RAS_HEDGE 0 3)
        match im, im.bind s2.hedgeVariant with
        | some i, some (_, v) => (s3.install i v at_).beginTick at_ (s3.tick + 1) 0
        | _, _ => s3
      else s)

/-! ### The tick boundary (R46) -/

/-- Runs every slot of the tick that has not retired yet: the FRAME_ENDs are the last slots of the ending tick (action 1). -/
def State.finishSlots (s : State) (v : Variant) : State :=
  let t := s.weave.tickLen
  ((v.slots t).zipIdx.drop s.weave.slot).foldl (fun u (e, i) => u.runSlot v t i e) s

/-- Retires every hole that is still due. -/
def State.finishDue (s : State) : State :=
  let s1 := s.weave.due.foldl (fun t h => t.retireHole h) s
  { s1 with weave := { s1.weave with due := [] } }

/-- The rings that an image configures. -/
def Image.ringNumbers (im : Image) : List Nat :=
  (List.range 64).filter (fun r => im.variants.any (fun v => v.rings.any (fun c => c.ring == r)))

/-- STOPPED is entered once every hole and FRAME_END of the extra tick is written (R68). -/
def State.stopFinish (s : State) : State :=
  if s.weave.stopping ∧ s.weave.due = [] ∧ s.weave.dueEnd = [] then
    ((({ s with weave := { s.weave with stopping := false, bound := [], openings := [], internal := [] } }).setWeave 5).putBit
      Reg.DMC_CFG 3 false).weaveIrq 5
  else s

/-- A stop takes effect at the boundary that begins at a pick (R68). -/
def State.beginStop (s : State) (v : Option Variant) (pick tick : Nat) : State :=
  let r := s.takePending (fun _ => true) (fun st _ => v.bind (fun x => x.ringOf st)) holeWeaveStop
  let rings := match s.weave.active with | some im => im.ringNumbers | none => []
  let s1 := (r.2.setPending false false).parkRoles.endResident
  let s2 := { s1 with weave := { s1.weave with
    stopping := true, bound := [], due := r.1, dueEnd := rings, tickPick := pick, slot := 0, ringTick := [], absorbed := [], before := none } }
  ((s2.setRegN Reg.WV_TICK (tick % 2 ^ 32)).weaveIrq 3).stopFinish

/-- A replacement takes effect at the boundary that begins at a pick: the changeover tick begins (R69). -/
def State.beginChangeover (s : State) (old : Image) (v : Option Variant) (pick tick : Nat) : State :=
  match s.weave.standby with
  | none => s
  | some im =>
    let r := s.takePending (fun _ => true) (fun st _ => v.bind (fun x => x.ringOf st)) holeWeaveChange
    let s1 := ((r.2.setPending false false).putBit Reg.WV_STATUS 3 false).sticky Reg.WV_STATUS 6
    let s2 := s1.parkRoles.endResident
    let newStreams := match s2.select im with | some x => x.streams | none => []
    let bound := (match v with | some x => x.streams | none => []) ++ newStreams
    let s3 := { s2 with weave := { s2.weave with
      active := some im, standby := none, before := some (old, s.variantId), tickLen := im.tick, due := r.1, bound := bound.eraseDups,
      openings := [], internal := [] } }
    (s3.installDescs im).beginTick pick tick 0

/-- The variant that ran before the changeover tick. -/
def State.beforeVariant (s : State) : Option Variant :=
  s.weave.before.bind (fun e => e.1.variants.find? (fun v => v.id == e.2))

/-- A fault-set change at a boundary selects another variant, which runs from there (R61, R298). -/
def State.switchVariant (s : State) (old v : Variant) (pick : Nat) : State :=
  let s1 := (s.setVariant v.id).weaveIrq 6
  let lost := (old.cores.filter (fun c => !v.cores.any (fun k => k.core == c.core))).map (fun c => c.core)
  let s2 := (lost.foldl (fun t l => match t.physOf l with | some p => t.requestPark p | none => t) s1).endResident
  let s3 := v.cores.foldl (fun t c => t.installRole false (some old) c) (s2.installCaches v)
  let gained := v.cores.filter (fun c => !old.cores.any (fun k => k.core == c.core))
  let s4 := gained.foldl (fun t c => (t.initParams c.core c.params).startCore c.core pick) s3
  let r := s4.takePending (fun n => !v.streams.contains n) (fun n _ => old.ringOf n) holeVariantSwitch
  ({ r.2 with weave := { r.2.weave with bound := v.streams, due := r.2.weave.due ++ r.1 } }).gateUnused

/-- The end of a changeover tick (R69, R495, R521): the rings and the remaining holes, FRAME_END on every ring of either image;
the new image is in place. -/
def State.endChangeover (s : State) (im : Image) (v : Option Variant) : State :=
  let oldRings := match s.weave.before with | some (o, _) => o.ringNumbers | none => []
  let oldV := s.beforeVariant
  let cfgs := match v with | some x => im.rings x | none => []
  let s1 := s.finishDue.ringsAdd oldRings cfgs
  let newRing := fun (n : Nat) => v.bind (fun x => x.ringOf n)
  let oldRing := fun (n : Nat) => oldV.bind (fun x => x.ringOf n)
  let r := s1.takePending (fun _ => true)
    (fun n f => if f.after then (match newRing n with | some k => some k | none => oldRing n)
      else (match oldRing n with | some k => some k | none => newRing n)) holeWeaveChange
  let s2 := r.1.foldl (fun t h => t.retireHole h) r.2
  let ends := (List.range 64).filter (fun k => oldRings.contains k || cfgs.any (fun c => c.ring == k))
  let cap := 1000 * (s.weave.tickPick + s.weave.tickLen)
  let s3 := ends.foldl (fun t k => t.retireEnd k cap) s2
  let s4 := match v with | some x => s3.ringsChange oldRings cfgs x.binds | none => s3
  (({ s4 with weave := { s4.weave with before := none } }).putBit Reg.WV_STATUS 6 false).weaveIrq 4

/-- The tick boundary that ends the changeover tick. A stop or replacement written during it takes effect here. -/
def State.changeoverBoundary (s : State) (im : Image) (pick : Nat) : State :=
  let v := s.select im
  let s1 := s.endChangeover im v
  let t := s.tick + 1
  if s1.bit Reg.WV_STATUS 5 then s1.beginStop v pick t
  else if s1.bit Reg.WV_STATUS 4 then s1.beginChangeover im v pick t
  else s1.launch im pick t false

/-- The tick boundary of a running weave (R46, R61, R68 to R70). -/
def State.runningBoundary (s : State) (im : Image) (v : Variant) (pick : Nat) : State :=
  let n := (v.slots s.weave.tickLen).length
  let s0 := s.finishDue.finishSlots v
  let tick0 := s0.tick
  let t := tick0 + 1
  if s0.bit Reg.WV_STATUS 5 then (s0.latchTelemetry tick0).beginStop (some v) pick t
  else if s0.bit Reg.WV_STATUS 4 then (s0.latchTelemetry tick0).tickBuffers.beginChangeover im (some v) pick t
  else if s0.weaveState = 4 ∧ s0.weave.selected ≠ s0.regN Reg.WV_FAULTSET then
    match s0.select im with
    | none => s0.hedgeEntry 3
    | some x =>
      let s1 := { s0 with weave := { s0.weave with selected := s0.regN Reg.WV_FAULTSET } }
      let s2 := if x.id = v.id then s1 else s1.switchVariant v x pick
      ((s2.latchTelemetry tick0).tickBuffers).beginTick pick t n
  else ((s0.latchTelemetry tick0).tickBuffers).beginTick pick t n

/-- TICK_BOUNDARY: the last pick of the tick has ended. -/
def execTickBoundary (s : State) : Out :=
  .next (
    let w := s.weaveState
    let pick := s.weave.tickPick + s.weave.tickLen
    if (w = 4 ∨ w = 6) ∧ s.weave.stopping = false ∧ s.weave.hedgeAt = none ∧ pick ≤ s.pickNow then
      match s.weave.active with
      | none => s
      | some im =>
        if w = 4 ∧ s.bit Reg.WV_STATUS 6 then s.changeoverBoundary im pick
        else match s.variant with
          | some v => s.runningBoundary im v pick
          | none => s
    else s)

/-- RETIREMENT_SLOT: the next hole that is due, the next FRAME_END of the extra tick of a stop, or the next slot of the
tick whose pick has begun (R59, R68, R69). -/
def execRetirementSlot (s : State) : Out :=
  .next (match s.weave.due, s.weave.dueEnd with
    | h :: rest, _ =>
      ({ s with weave := { s.weave with due := rest } }).retireHole h |>.stopFinish
    | [], r :: rest =>
      ({ s with weave := { s.weave with dueEnd := rest } }).retireEnd r (1000 * s.weave.tickPick) |>.stopFinish
    | [], [] =>
      let w := s.weaveState
      if (w = 4 ∨ w = 6) ∧ s.bit Reg.WV_STATUS 6 = false ∧ s.weave.hedgeAt = none then
        match s.variant with
        | none => s
        | some v => match (v.slots s.weave.tickLen)[s.weave.slot]? with
          | some e => if e.pick ≤ s.offset then s.runSlot v s.weave.tickLen s.weave.slot e else s
          | none => s
      else s)

end Sys2Proof.Machine
end

