-- ==== Sys2Proof/Machine/Dram.lean ====
section
/-! DEFINITION. The LP5X DRAM controller and the system cache in front of it (06_memory_system.md R163, R165; 13 R334 to R358):
initialisation, request queues and their order, line code, refresh, maintenance and channel faults. -/

namespace Sys2Proof.Machine

/-! ### Channels -/

/-- Channel ch. -/
def State.chan (s : State) (ch : Nat) : ChanSt := Tbl.get (fun _ => ChanSt.init) s.dram.chans ch

/-- Sets channel ch; DCH_QOCC shows its queues and their peaks. -/
def State.setChan (s : State) (ch : Nat) (c : ChanSt) : State :=
  let q := s.regN (Reg.DCH_QOCC ch)
  let r := c.reads.length
  let w := c.writes.length
  let v := r + w * 256 + max r (field q 16 7) * 65536 + max w (field q 24 6) * 16777216
  ({ s with dram := { s.dram with chans := Tbl.set (fun _ => ChanSt.init) s.dram.chans ch c } }).setRegN (Reg.DCH_QOCC ch) v

/-- DRAM is initialised. -/
def State.dramReady (s : State) : Bool := s.bit Reg.DMC_STATUS 0

/-- Channel ch has been declared faulty. -/
def State.chanFault (s : State) (ch : Nat) : Bool := s.bit Reg.DMC_FAULT ch

/-- Channel ch is declared faulty for a cause (R358): its requests complete at once, its lines read as zero, and hedge mode is
entered. -/
def State.failChan (s : State) (ch cause : Nat) : State :=
  if s.chanFault ch then s
  else
    let c := s.chan ch
    let bit := if cause = 1 then 2 else if cause = 2 then 3 else 4
    let s1 := (((s.sticky Reg.DMC_FAULT ch).sticky (Reg.DCH_STATUS ch) 1).sticky (Reg.DCH_STATUS ch) bit).sticky Reg.DMC_IRQ_STATUS 2
    let s2 := s1.setChan ch { c with reads := [], writes := [], flight := [], check := [] }
    let sc := s2.dram.scrub.map (fun k => { k with chan := true })
    let s3 := { s2 with
      mem := s2.mem.filter (fun e => !(decide (e.1 < 0x1000000000) && (s2.dramDecode e.1).ch == ch)),
      dram := { s2.dram with scrub := sc } }
    (s3.logEvent 0x505 3 (9 + ch) (ch + 16 * cause) 0).hedgeEntry 1

/-! ### Initialisation (R334, R335, R339) -/

/-- A write of DMC_CTRL: fill, then init and flush. -/
def State.dmcCtrl (s : State) (v : Nat) : State :=
  let s1 := s.putBit Reg.DMC_CTRL 1 (v.testBit 1)
  let busy := s1.bit Reg.DMC_STATUS 1
  let s2 := if v.testBit 0 then
      (if busy || s1.dramReady then s1.sticky Reg.DMC_STAT 0
       else s1.setRegN Reg.DMC_STATUS 2)
    else s1
  if v.testBit 2 ∧ s2.dramReady = true ∧ busy = false then s2.putBit Reg.DMC_STATUS 1 true else s2

/-- DRAM_INIT: a write of 1 to DMC_CTRL.init with a value of fill. -/
def execDramInit (fill : Bool) (s : State) : Out := .next (s.dmcCtrl (if fill then 3 else 1))

/-- DMC_CAP.mib of a configuration (R333). -/
def dramCap (dense two : Bool) : Nat :=
  match dense, two with
  | false, false => 0x38E0
  | false, true => 0x71C0
  | true, false => 0x71C4
  | true, true => 0xE388

/-- Initialisation ends. -/
def State.dramInitDone (s : State) (r : DramInit) : State :=
    if s.bit Reg.DMC_STATUS 1 = false ∨ s.dramReady = true then s
    else match r with
      | .ok dense two rfm =>
        let s1 := ((s.setFld Reg.DMC_CFG 0 3 ((if two then 2 else 1) + (if dense then 4 else 0))).setRegN Reg.DMC_CAP (dramCap dense two)).setRegN
          Reg.DMC_STATUS 1
        let masks := (List.range 4).map (s.hashMask false) ++ (List.range 4).map (s.hashMask true)
        let s2 := { s1 with dram := { s1.dram with rfm := rfm.toNat, layout := some masks } }
        let s3 := if s.bit Reg.DMC_CTRL 1 then
            let t := s2.clearMem 0 0x1000000000
            { t with badLines := t.badLines.filter (fun e => decide (2 ^ 29 ≤ e.1)), dram := { t.dram with raw := false } }
          else s2
        ((List.range 16).foldl (fun t ch => t.sticky (Reg.DCH_STATUS ch) 0) s3).sticky Reg.DMC_IRQ_STATUS 0
      | .fail cause chans =>
        let s1 := (s.setRegN Reg.DMC_STATUS (4 + cause.toNat * 8 + chans.toNat * 64)).sticky Reg.DMC_IRQ_STATUS 1
        if s1.weaveState = 3 then s1.hedgeEntry 1 else s1

/-- DRAM_FLUSH: a write of 1 to DMC_CTRL.flush with a value of fill. -/
def execDramFlush (fill : Bool) (s : State) : Out := .next (s.dmcCtrl (if fill then 6 else 4))

/-- DRAM_FLUSH_COMPLETE: every dirty check block has been written back. -/
def execDramFlushComplete (s : State) : Out :=
  .next (
    if s.bit Reg.DMC_STATUS 1 = true ∧ s.dramReady = true then
      let s1 := (List.range 16).foldl (fun t ch =>
        let c := t.chan ch
        t.setChan ch { c with check := c.check.map (fun (b, k, _) => (b, k, false)) }) s
      s1.putBit Reg.DMC_STATUS 1 false
    else s)

/-! ### The system cache (R163, R165) -/

/-- Set i of the system cache. -/
def State.scSet (s : State) (i : Nat) : ScSet := Tbl.get (fun _ => ScSet.init) s.dram.cache i

/-- Sets set i. -/
def State.setSc (s : State) (i : Nat) (v : ScSet) : State :=
  { s with dram := { s.dram with cache := Tbl.set (fun _ => ScSet.init) s.dram.cache i v } }

/-- The line in way w of a set. -/
def ScSet.way (v : ScSet) (w : Nat) : Option ScLine := Tbl.get (fun _ => none) v.ways w

/-- The replacement tree after an access to way w: every node on its path points away from it. -/
def ScSet.touch (v : ScSet) (w : Nat) : ScSet :=
  let node := fun (k : Nat) => 2 ^ k + w / 2 ^ (4 - k) - 1
  let t := (List.range 4).foldl (fun t k => putField t (node k) 1 (1 - w / 2 ^ (3 - k) % 2)) v.tree
  { v with tree := t }

/-- The way that the tree selects among allowed ones: at each node the side it points to, the other where that side has none. -/
def ScSet.victim (v : ScSet) (allowed : Nat → Bool) : Nat → Nat → Nat
  | 0, w => w
  | k + 1, w =>
    -- w is the prefix of a way number; k + 1 levels are left
    let depth := 3 - k
    let any := fun (p : Nat) => (List.range (2 ^ k)).any (fun i => allowed (p * 2 ^ k + i))
    let side := field v.tree (2 ^ depth + w - 1) 1
    let p := 2 * w + side
    v.victim allowed k (if any p then p else 2 * w + (1 - side))

/-- Ways in which a class may allocate: its mask without the window ways. -/
def State.scAllowed (s : State) (cls w : Nat) : Bool :=
  s.bit (Reg.SYS_SC_WAYMASK cls) w && decide (w + s.fld Reg.SYS_SC_WINDOW 0 5 < 16)

/-! ### Requests (R337, R346, R348) -/

/-- A request for a line at its channel. -/
def State.chanReq (s : State) (line cls : Nat) (write close part scrub : Bool) : ChanReq :=
  let p := s.dramDecode (128 * line)
  { line := line, bank := 16 * p.rank + p.bank, row := p.row, check := 16 * p.crow + p.cbyte / 128, write := write, cls := cls, close := close, part := part, scrub := scrub, age := 0, since := s.time, held := false }

/-- The draining state of a write queue of n entries (R348). -/
def drainState (was : Bool) (n : Nat) : Bool := if 24 ≤ n then true else if n ≤ 8 then false else was

/-- A request enters its channel's queue: a read that finds a write of its line there is served from it (R346); a full queue takes
nothing. -/
def State.enqueueReq (s : State) (r : ChanReq) : State :=
  let ch := (s.dramDecode (128 * r.line)).ch
  let c := s.chan ch
  if s.chanFault ch then s
  else
    let c1 := { c with lastReq := Tbl.set (fun _ => 0) c.lastReq (r.bank / 16) s.time }
    let s1 := s.putBit (Reg.DCH_STATUS ch) (5 + r.bank / 16) false
    if r.write then
      let w := if c.writes.length < 32 then c.writes ++ [r] else c.writes
      s1.setChan ch { c1 with writes := w, draining := drainState c.draining w.length }
    else if c.writes.any (fun x => x.line == r.line) then s1.setChan ch c1
    else s1.setChan ch { c1 with reads := if c.reads.length < 64 then c.reads ++ [r] else c.reads }

/-- An access of a class to a line looks up the system cache and goes to its channel where it misses (R163, R165, R343). -/
def State.scAccess (s : State) (line cls : Nat) (write noalloc part close : Bool) : State :=
  let i := line % 16384
  let v := s.scSet i
  let hit := (List.range 16).find? (fun w => match v.way w with | some l => l.line == line | none => false)
  match hit with
  | some w =>
    let v1 := { v with ways := Tbl.set (fun _ => none) v.ways w ((v.way w).map (fun (l : ScLine) => { l with dirty := l.dirty || write })) }
    s.setSc i (v1.touch w)
  | none =>
    let ok := s.scAllowed cls
    if noalloc || !(List.range 16).any ok then s.enqueueReq (s.chanReq line cls write close part false)
    else
      let w := match (List.range 16).find? (fun w => ok w && (v.way w).isNone) with
        | some w => w
        | none => v.victim ok 4 0
      let s1 := match v.way w with
        | some l => if l.dirty then s.enqueueReq (s.chanReq l.line cls true true false false) else s
        | none => s
      let v1 := { v with ways := Tbl.set (fun _ => none) v.ways w (some ⟨line, write⟩) }
      let s2 := s1.setSc i (v1.touch w)
      if write && !part then s2 else s2.enqueueReq (s2.chanReq line cls false close false false)

/-- DRAM_REQUEST: an access reaches the system cache. part: it covers less than a whole line. close: the page hint (R349). scrub: the
next line of the software scrub pass, always forwarded and never allocated (R367). -/
def execDramRequest (line : BitVec 29) (cls : Fin 8) (write noalloc part close scrub : Bool) (s : State) : Out :=
  .next (
    if s.dramReady = false ∨ s.dramBytes < 128 * (line.toNat + 1) then s
    else if scrub then
      match s.dram.scrub with
      | some k =>
        if k.next = 128 * line.toNat ∧ k.next < k.stop ∧ k.abort = false then
          let s1 := { s with dram := { s.dram with scrub := some { k with next := k.next + 128 } } }
          if s.chanFault (s.dramDecode k.next).ch then
            let k1 := { k with next := k.next + 128, ue := k.ue + 1, first := some (k.first.getD k.next), last := k.next, chan := true }
            (({ s with dram := { s.dram with scrub := some k1 } }).setReg64 Reg.SCRB_POS_LO (k.next + 128))
          else (s1.setReg64 Reg.SCRB_POS_LO (k.next + 128)).enqueueReq (s.chanReq line.toNat 7 false false false true)
        else s
      | none => s
    else s.scAccess line.toNat cls.val write noalloc part close)

/-! ### The choice of the next access (R347 to R353) -/

/-- Activations of a class at a bank in the sliding window. -/
def ChanSt.windowCount (c : ChanSt) (bank cls now : Nat) : Nat :=
  (((Tbl.get (fun _ => []) c.acts (8 * bank + cls)).filter (fun e => decide (now / 8000 ≤ e.1 + 7))).map (fun e => e.2)).sum

/-- Tokens of a class at a bank now: at most 4, one gained every DMC_RDT_RATE ns. -/
def ChanSt.tokensNow (c : ChanSt) (bank cls now rate : Nat) : Nat :=
  match Tbl.get (fun _ => none) c.tokens (8 * bank + cls) with
  | none => 4
  | some (n, t) => min 4 (n + (now - t) / max 1 rate)

/-- An activation of a class at a bank is recorded, and takes a token where the class is above its threshold there. -/
def ChanSt.activate (c : ChanSt) (bank cls now rate thresh : Nat) : ChanSt :=
  let k := 8 * bank + cls
  let l := (Tbl.get (fun _ => []) c.acts k).filter (fun e => decide (now / 8000 ≤ e.1 + 7))
  let l1 := match l with
    | (i, n) :: r => if i = now / 8000 then (i, n + 1) :: r else (now / 8000, 1) :: l
    | [] => [(now / 8000, 1)]
  let tok : Tbl (Option (Nat × Nat)) := if thresh < c.windowCount bank cls now then
      match Tbl.get (fun _ => none) c.tokens k with
      | none => Tbl.set (fun _ => none) c.tokens k (some (3, now))
      | some (n, t) =>
        let got := (now - t) / max 1 rate
        if 4 ≤ n + got then Tbl.set (fun _ => none) c.tokens k (some (3, now))
        else Tbl.set (fun _ => none) c.tokens k (some (n + got - 1, t + got * max 1 rate))
    else c.tokens
  { c with acts := Tbl.set (fun _ => []) c.acts k l1, tokens := tok, raa := Tbl.set (fun _ => 0) c.raa bank (Tbl.get (fun _ => 0) c.raa bank + 1) }

/-- Open row of a bank. -/
def ChanSt.openRow (c : ChanSt) (bank : Nat) : Option Nat := (Tbl.get (fun _ => none) c.rows bank).map (fun e => e.1)

/-- Closes the open row of a bank. -/
def ChanSt.closeRow (c : ChanSt) (bank : Nat) : ChanSt := { c with rows := Tbl.set (fun _ => none) c.rows bank none }

/-- A request of the channel hits the row of a bank. -/
def ChanSt.wants (c : ChanSt) (bank row : Nat) : Bool := (c.reads ++ c.writes).any (fun r => r.bank == bank && r.row == row)

/-- An access to a row of a bank of channel ch: a hit or an activation, then the page policy (R349, R350). -/
def State.rowAccess (s : State) (ch bank row cls : Nat) (close : Bool) : State :=
  let c := s.chan ch
  let now := s.time
  let hit := c.openRow bank == some row
  let c1 := if hit then c else c.activate bank cls now (s.fld Reg.DMC_RDT_RATE 0 12) (s.fld (Reg.DMC_RDT_THRESH0 + 4 * cls) 0 12)
  let shut := close && !s.bit Reg.DMC_CFG 3 && !c1.wants bank row
  let c2 := { c1 with rows := Tbl.set (fun _ => none) c1.rows bank (if shut then none else some (row, now)) }
  (s.setChan ch c2).satAdd (if hit then Reg.DCH_HITS ch else Reg.DCH_ACT ch) 1

/-- The check block of an access: read from its check row when absent; the least recently used of 64 leaves, written back when
dirty (Check cache). -/
def State.checkAccess (s : State) (ch : Nat) (r : ChanReq) : State :=
  let c := s.chan ch
  let mine := fun (e : Nat × Nat × Bool) => e.1 == r.bank && e.2.1 == r.check
  match c.check.find? mine with
  | some (_, _, d) => s.setChan ch { c with check := (r.bank, r.check, d || r.write) :: c.check.filter (fun e => !mine e) }
  | none =>
    let s1 := s.rowAccess ch r.bank (r.check / 16) r.cls true
    let all := (r.bank, r.check, r.write) :: (s1.chan ch).check
    let s2 := s1.setChan ch { s1.chan ch with check := all.take 64 }
    match all.drop 64 with
    | (b, k, true) :: _ => s2.rowAccess ch b (k / 16) 7 true
    | _ => s2

/-- A throttle holds request r at channel ch (R353). -/
def State.throttled (s : State) (ch : Nat) (r : ChanReq) : Bool :=
  let c := s.chan ch
  c.openRow r.bank != some r.row && decide (s.fld (Reg.DMC_RDT_THRESH0 + 4 * r.cls) 0 12 < c.windowCount r.bank r.cls s.time) &&
    c.tokensNow r.bank r.cls s.time (s.fld Reg.DMC_RDT_RATE 0 12) == 0

/-- Writes are eligible (R348). -/
def ChanSt.drains (c : ChanSt) : Bool := c.draining || c.reads.isEmpty || c.writes.any (fun r => decide (64 ≤ r.age))

/-- Refresh management is due at a bank (R352). -/
def State.rfmDue (s : State) (ch bank : Nat) : Bool :=
  s.dram.rfm != 0 && decide (s.dram.rfm ≤ Tbl.get (fun _ => 0) (s.chan ch).raa bank)

/-- Request r is eligible (R347): not throttled, a write only while the queue drains and after every read of its line, and not
behind refresh management of its bank unless its age is 64. -/
def State.eligible (s : State) (ch : Nat) (r : ChanReq) : Bool :=
  let c := s.chan ch
  !s.throttled ch r && (!r.write || (c.drains && !c.reads.any (fun x => x.line == r.line))) &&
    (!s.rfmDue ch r.bank || decide (64 ≤ r.age))

/-- A request in order of arrival. -/
def insertReq (r : ChanReq) : List ChanReq → List ChanReq
  | [] => [r]
  | x :: xs => if r.since < x.since then r :: x :: xs else x :: insertReq r xs

/-- The request that channel ch issues next, and whether rule 1 chose it. -/
def State.nextReq (s : State) (ch : Nat) : Option (ChanReq × Bool) :=
  let c := s.chan ch
  let l := ((c.reads ++ c.writes).foldl (fun l r => insertReq r l) []).filter (s.eligible ch)
  match l.find? (fun r => decide (64 ≤ r.age)), l.find? (fun r => c.openRow r.bank == some r.row), l with
  | some r, _, _ => some (r, true)
  | none, some r, _ => some (r, false)
  | none, none, r :: _ => some (r, false)
  | none, none, [] => none

/-- The bank whose due refresh is issued now: one at its postponement limit, or one without queued row hits (R351). -/
def State.nextRefresh (s : State) (ch : Nat) (limit : Bool) : Option Nat :=
  let c := s.chan ch
  (c.due.find? (fun e => if limit then decide (4 ≤ e.2) else match c.openRow e.1 with
    | some row => !c.wants e.1 row
    | none => true)).map (fun e => e.1)

/-- A per-bank refresh: the row closes. -/
def State.refreshBank (s : State) (ch bank : Nat) : State :=
  let c := s.chan ch
  let c1 := { c with due := Tbl.set (fun _ => 0) c.due bank (Tbl.get (fun _ => 0) c.due bank - 1) }
  (s.setChan ch (c1.closeRow bank)).satAdd (Reg.DCH_REF ch) 1

/-- Request r leaves its queue, and every other eligible request grows older by one. -/
def State.takeReq (s : State) (ch : Nat) (r : ChanReq) : State :=
  let c := s.chan ch
  let old := fun (x : ChanReq) => if s.eligible ch x then { x with age := x.age + 1 } else x
  let rs := (if r.write then c.reads else c.reads.erase r).map old
  let ws := (if r.write then c.writes.erase r else c.writes).map old
  s.setChan ch { c with reads := rs, writes := ws, draining := drainState c.draining ws.length }

/-- Issues request r: its check block, its row, and the read of a read-modify-write. -/
def State.issueReq (s : State) (ch : Nat) (r : ChanReq) (first : Bool) : State :=
  let s1 := (if first then s.satAdd (Reg.DCH_AGECAP ch) 1 else s).takeReq ch r
  let s2 := s1.checkAccess ch r
  let s3 := if r.write && r.part then s2.rowAccess ch r.bank r.row r.cls false else s2
  let s4 := s3.rowAccess ch r.bank r.row r.cls r.close
  if r.write then s4 else s4.setChan ch { s4.chan ch with flight := (s4.chan ch).flight ++ [r] }

/-- Requests that a throttle newly holds are counted. -/
def State.countHeld (s : State) (ch : Nat) : State :=
  let c := s.chan ch
  let new := fun (r : ChanReq) => s.throttled ch r && !r.held
  let mark := fun (r : ChanReq) => if new r then { r with held := true } else r
  let n := ((c.reads ++ c.writes).filter new).length
  if n = 0 then s else (s.setChan ch { c with reads := c.reads.map mark, writes := c.writes.map mark }).satAdd (Reg.DCH_THROTTLE ch) n

/-- DRAM_ACCESS_ISSUE: channel ch issues one refresh or request. -/
def execDramAccessIssue (ch : Fin 16) (s : State) : Out :=
  .next (
    let k := ch.val
    if s.dramReady = false ∨ s.chanFault k = true then s
    else
      let s1 := s.countHeld k
      match s1.nextRefresh k true, s1.nextReq k, s1.nextRefresh k false with
      | some b, _, _ => s1.refreshBank k b
      | none, some (r, true), _ => s1.issueReq k r true
      | none, _, some b => s1.refreshBank k b
      | none, some (r, false), none => s1.issueReq k r false
      | none, none, none => s1)

/-! ### The end of a read (R340 to R344) -/

/-- A line of the software scrub pass has failed (R370). -/
def State.scrubFail (s : State) (a : Nat) (uncorr : Bool) : State :=
  { s with dram := { s.dram with scrub := s.dram.scrub.map (fun k => { k with
      ce := k.ce + (if uncorr then 0 else 1), ue := k.ue + (if uncorr then 1 else 0), first := some (k.first.getD a), last := a }) } }

/-- A dirty line of the system cache covers line l. -/
def State.scDirty (s : State) (l : Nat) : Bool :=
  (s.scSet (l % 16384)).ways.any (fun e => match e.2 with | some x => x.line == l && x.dirty | none => false)

/-- Channel ch has read a line uncorrectably (R342, R358). poisoned: the line holds the pattern of R343. -/
def State.lineUncorr (s : State) (ch : Nat) (r : ChanReq) (poisoned : Bool) : State :=
  let a := 128 * r.line
  let s1 := (s.satAdd (Reg.DCH_UE ch) 1).sticky Reg.DMC_IRQ_STATUS 3
  let s2 := if s1.bit (Reg.DCH_UEADDR_HI ch) 31 then s1
    else (s1.setRegN (Reg.DCH_UEADDR_LO ch) (a % 2 ^ 32)).setRegN (Reg.DCH_UEADDR_HI ch) (a / 2 ^ 32 + (if poisoned then 2 ^ 30 else 0) + 2 ^ 31)
  let s3 := s2.logEvent 0x504 2 (9 + ch) (ch + (if poisoned then 16 else 0)) a
  let s4 := if r.scrub then s3.scrubFail a true else s3
  if poisoned then s4
  else
    let c := s4.chan ch
    let us := s4.time :: c.ues.filter (fun t => decide (s4.time < t + 1000000000))
    let s5 := s4.setChan ch { c with ues := us }
    if s5.fld Reg.DMC_UELIMIT 0 16 < us.length then s5.failChan ch 3 else s5

/-- Channel ch has corrected a line (R341): counted, and written back unless a write of the line is queued. -/
def State.lineCorrected (s : State) (ch : Nat) (r : ChanReq) : State :=
  let a := 128 * r.line
  let s1 := s.satAdd (Reg.DCH_CE ch) 1
  let s2 := if s1.bit (Reg.DCH_CEADDR_HI ch) 31 then s1
    else (s1.setRegN (Reg.DCH_CEADDR_LO ch) (a % 2 ^ 32)).setRegN (Reg.DCH_CEADDR_HI ch) (a / 2 ^ 32 + 2 ^ 31)
  let s3 := if r.scrub then s2.scrubFail a false else s2
  if (s3.chan ch).writes.any (fun x => x.line == r.line) then s3 else s3.enqueueReq (s3.chanReq r.line 7 true true false false)

/-- DRAM_READ_COMPLETE: the oldest read in flight at channel ch completes. errors counts the wrong bits of its 144 bytes, link says that
the read link corrected an error, raw is the line as read. More than 16 wrong bits are reported or miscorrected: a free choice. -/
def execDramReadComplete (ch : Fin 16) (errors : BitVec 11) (link : Bool) (raw : List (BitVec 8)) (s : State) : Out :=
  .next (
    let k := ch.val
    match (s.chan k).flight with
    | [] => s
    | r :: rest =>
      let s1 := s.setChan k { s.chan k with flight := rest }
      let s2 := if link then s1.satAdd (Reg.DCH_LINKCE k) 1 else s1
      let n := errors.toNat
      let f := s2.free 1
      let put := fun (t : State) => if t.scDirty r.line then t else t.setBytes (128 * r.line) ((raw.map (fun b => b.toNat)).take 128)
      let mark := fun (t : State) => if t.scDirty r.line then t else t.markLine r.line true
      if s2.lineBad r.line then s2.lineUncorr k r true
      else if n = 0 then s2
      else if n ≤ 8 then s2.lineCorrected k r
      else if n ≤ 16 then (mark (put s2)).lineUncorr k r false
      else if f.1 = 1 then (mark (put f.2)).lineUncorr k r false
      else (put f.2).lineCorrected k r)

/-! ### Refresh and maintenance (R349, R351 to R356) -/

/-- DRAM_REFRESH: a per-bank refresh of a bank (16 × rank + bank) comes due. -/
def execDramRefresh (ch : Fin 16) (bank : Fin 32) (s : State) : Out :=
  .next (
    let c := s.chan ch.val
    if s.dramReady = false ∨ s.chanFault ch.val = true then s
    else s.setChan ch.val { c with due := Tbl.set (fun _ => 0) c.due bank.val (Tbl.get (fun _ => 0) c.due bank.val + 1) })

/-- REFRESH_MANAGEMENT: the rolling activation count of a bank has reached the threshold. -/
def execRefreshManagement (ch : Fin 16) (bank : Fin 32) (s : State) : Out :=
  .next (
    let k := ch.val
    if s.dramReady = true ∧ s.chanFault k = false ∧ s.rfmDue k bank.val = true then
      let c := s.chan k
      let c1 := { c with raa := Tbl.set (fun _ => 0) c.raa bank.val (Tbl.get (fun _ => 0) c.raa bank.val - s.dram.rfm) }
      (s.setChan k (c1.closeRow bank.val)).satAdd (Reg.DCH_RFM k) 1
    else s)

/-- The oscillator measurement of one rank (R354, R355): adjusted write timing is counted; a limit reached, or three failures in a
row, is a failed retraining. -/
def State.oscillator (s : State) (ch rank : Nat) (r : OscResult) : State :=
  let c := s.chan ch
  let fails := Tbl.get (fun _ => 0) c.oscFail rank
  let set := fun (n : Nat) => s.setChan ch { c with oscFail := Tbl.set (fun _ => 0) c.oscFail rank n }
  match r with
  | .ok => set 0
  | .adjust => (set 0).satAdd (Reg.DCH_RETRAIN ch) 1
  | .limit => (set 0).failChan ch 1
  | .failed => if 2 ≤ fails then (set (fails + 1)).failChan ch 1 else set (fails + 1)

/-- QUIET_WINDOW: the quiet window of channel ch at the start of a pick; osc0 and osc1 are the ranks' measurements, mr4 and hot what mode
register 4 reports in every fourth window. -/
def execQuietWindow (ch : Fin 16) (osc0 osc1 : OscResult) (mr4 : BitVec 16) (hot : Bool) (s : State) : Out :=
  .next (
    let k := ch.val
    let c := s.chan k
    if s.dramReady = false ∨ s.chanFault k = true ∨ s.pickNow % 64 ≠ 4 * k % 64 ∨ c.lastQuiet = some s.pickNow then s
    else
      let s1 := s.setChan k { c with lastQuiet := some s.pickNow, windows := c.windows + 1 }
      let s2 := s1.oscillator k 0 osc0
      let s3 := if s2.fld Reg.DMC_CFG 0 2 = 2 ∧ s2.chanFault k = false then s2.oscillator k 1 osc1 else s2
      if (c.windows + 1) % 4 = 0 then (s3.setRegN (Reg.DCH_MR4 k) mr4.toNat).stickyIf hot Reg.DMC_IRQ_STATUS 4 else s3)

/-- POWER_DOWN_ENTRY: a rank has had no request for DMC_PD.timer × 8 ns. -/
def execPowerDownEntry (ch : Fin 16) (rank : Fin 2) (s : State) : Out :=
  .next (
    let k := ch.val
    let c := s.chan k
    let t := s.fld Reg.DMC_PD 0 16
    if s.dramReady = true ∧ t ≠ 0 ∧ (c.reads ++ c.writes).any (fun r => r.bank / 16 == rank.val) = false ∧
        Tbl.get (fun _ => 0) c.lastReq rank.val + 8 * t < s.time + 1000 then s.putBit (Reg.DCH_STATUS k) (5 + rank.val) true
    else s)

/-- OPEN_ROW_IDLE_CLOSE: an open row has been idle for DMC_PAGE.idle ns (R349, R350). -/
def execOpenRowIdleClose (ch : Fin 16) (bank : Fin 32) (s : State) : Out :=
  .next (
    let k := ch.val
    let c := s.chan k
    let t := s.fld Reg.DMC_PAGE 0 12
    match Tbl.get (fun _ => none) c.rows bank.val with
    | some (_, last) => if t ≠ 0 ∧ s.bit Reg.DMC_CFG 3 = false ∧ last + t < s.time + 1000 then s.setChan k (c.closeRow bank.val) else s
    | none => s)

/-- DRAM_REQUEST_TIMEOUT: a request has been outstanding 100 µs at channel ch (R358). -/
def execDramRequestTimeout (ch : Fin 16) (s : State) : Out :=
  .next (
    let c := s.chan ch.val
    if (c.reads ++ c.writes ++ c.flight).any (fun r => decide (r.since + 100000 < s.time + 1000)) then s.failChan ch.val 2 else s)

end Sys2Proof.Machine
end

