-- ==== Sys2Proof/Machine/Ingest.lean ====
section
/-! DEFINITION. Camera network ingest (11_video_ingest.md R292 to R300, R311): frame classification, the software queues, the
stream table, reassembly and stamping of access units. -/

namespace Sys2Proof.Machine

/-! ### Frames -/

/-- n bytes at an offset, big-endian, as network headers hold them. -/
def be (f : List Nat) (o n : Nat) : Nat := beVal ((f.drop o).take n)

/-- The sum of 16-bit big-endian words, an odd last byte padded with 0. -/
def wordSum : List Nat → Nat
  | a :: b :: r => 256 * a + b + wordSum r
  | [a] => 256 * a
  | [] => 0

/-- The ones' complement sum of an Internet checksum. -/
def onesSum (l : List Nat) : Nat :=
  let n := wordSum l
  let f := n % 65536 + n / 65536
  let g := f % 65536 + f / 65536
  g % 65536 + g / 65536

/-- The port's address filter: unicast, broadcast, or a multicast address whose hash bit is set. Port 2 is MNET, whose registers
have the same layout (R292, R480). -/
def State.macOk (s : State) (port : Nat) (f : List Nat) : Bool :=
  let d := be f 0 6
  let h := crc32 (f.take 6) / 2 ^ 26
  d == s.reg64 (Reg.NET_MAC_LO port) % 2 ^ 48 || d == 0xFFFFFFFFFFFF ||
    (nbit (f.getD 0 0) 0 && nbit (s.reg64 (Reg.NET_MCHASH_LO port)) h)

/-- What a frame is below its Ethernet header: its tag's VLAN id and the offset of the network header, none with two tags. -/
def tagOf (f : List Nat) : Option (Option Nat × Nat × Nat) :=
  if be f 12 2 = 0x8100 then
    (if be f 16 2 = 0x8100 then none else some (some (be f 14 2 % 4096), be f 16 2, 18))
  else some (none, be f 12 2, 14)

/-- Extension headers of IPv6. -/
def ip6Ext (n : Nat) : Bool := n == 0 || n == 43 || n == 44 || n == 51 || n == 60 || n == 135

/-- The upper-layer protocol after the extension headers of an IPv6 packet. -/
def ip6Last (f : List Nat) : Nat → Nat → Nat → Nat
  | 0, n, _ => n
  | k + 1, n, o =>
    if ip6Ext n then
      ip6Last f k (f.getD o 0) (o + (if n = 44 then 8 else if n = 51 then 4 * (f.getD (o + 1) 0 + 2) else 8 * (f.getD (o + 1) 0 + 1)))
    else n

/-- How R292 classifies a frame below row 1 and before the stream table. -/
inductive NetClass where
  | toSw
  | dropIp
  | dropCsum
  /-- a UDP packet: destination port and payload -/
  | udp (port : Nat) (data : List Nat)
  deriving DecidableEq, Repr

/-- The UDP part of a packet: lengths and checksum. pseudo is the part of the pseudo header before the length. -/
def classifyUdp (pseudo p : List Nat) : NetClass :=
  let n := be p 4 2
  let d := p.take n
  if n < 8 ∨ p.length < n then .dropCsum
  else if be p 6 2 ≠ 0 ∧ onesSum (pseudo ++ [n / 256, n % 256] ++ d) ≠ 0xFFFF then .dropCsum
  else .udp (be p 2 2) (d.drop 8)

/-- Rows 2 to 4 of the receive classification. -/
def classify (type : Nat) (p : List Nat) : NetClass :=
  let v := p.getD 0 0
  if type = 0x0800 ∧ v / 16 = 4 then
    let ihl := 4 * (v % 16)
    let len := be p 2 2
    if p.getD 9 0 ≠ 17 then .toSw
    else if be p 6 2 % 0x4000 ≠ 0 then .dropIp
    else if ihl < 20 ∨ len < ihl ∨ p.length < len ∨ onesSum (p.take ihl) ≠ 0xFFFF then .dropCsum
    else classifyUdp ((p.drop 12).take 8 ++ [0, 17]) ((p.take len).drop ihl)
  else if type = 0x86DD ∧ v / 16 = 6 then
    let nh := p.getD 6 0
    if ip6Last p 64 nh 40 ≠ 17 then .toSw
    else if nh ≠ 17 then .dropIp
    else if p.length < 40 + be p 4 2 then .dropCsum
    else classifyUdp ((p.drop 8).take 32 ++ [0, 17]) ((p.drop 40).take (be p 4 2))
  else .toSw

/-! ### Software queues -/

/-- A frame without its FCS goes to the software receive queue of a port; false where it is dropped. -/
def State.swDeliver (s : State) (port : Nat) (f : List Nat) (time : Nat) : Bool × State :=
  let size := 2 ^ s.fld (Reg.NET_SWQ_CFG port) 0 4
  let head := s.fld (Reg.NET_SWRX_HEAD port) 0 10
  let tail := s.fld (Reg.NET_SWRX_TAIL port) 0 10
  if s.bit (Reg.NET_SWQ_CFG port) 8 = false ∨ 2032 < f.length ∨ (tail + 1) % size = head % size then (false, s)
  else
    let a := s.reg64 (Reg.NET_SWRX_BASE_LO port) % 2 ^ 40 + 2048 * (tail % size)
    let hd := leBytes 2 f.length ++ [port % 2, 1, 0, 0, 0, 0] ++ leBytes 8 time
    (true, (s.agentWrite a (hd ++ f)).setFld (Reg.NET_SWRX_TAIL port) 0 10 ((tail + 1) % size))

/-- A frame of NET0 or NET1 that rows 2 and 5 send to software. -/
def State.toSoftware (s : State) (port : Nat) (f : List Nat) (time : Nat) : State :=
  let r := (s.satAdd (Reg.NET_TOSW port) 1).swDeliver port f time
  if r.1 then r.2 else r.2.satAdd (Reg.NET_SWDROP port) 1

/-- SW_TX_SUBMIT: a write to NET_SWTX_TAIL. -/
def execSwTxSubmit (port : Fin 2) (v : Word) (s : State) : Out :=
  .next (s.setFld (Reg.NET_SWTX_TAIL port.val) 0 10 (v.toNat % 1024))

/-- SW_TX_FRAME_SENT: a port has sent the frame at its head. -/
def execSwTxFrameSent (port : Fin 3) (time : BitVec 64) (s : State) : Out :=
  .next (
    let p := port.val
    let size := 2 ^ s.fld (Reg.NET_SWQ_CFG p) 4 4
    let head := s.fld (Reg.NET_SWTX_HEAD p) 0 10
    if s.bit (Reg.NET_CTRL p) 0 = false ∨ s.bit (Reg.NET_SWQ_CFG p) 9 = false ∨
      head % size = s.fld (Reg.NET_SWTX_TAIL p) 0 10 % size then s
    else
      let a := s.reg64 (Reg.NET_SWTX_BASE_LO p) % 2 ^ 40 + 2048 * (head % size)
      let s1 := if nbit (s.byte (a + 2)) 0 then (s.agentWrite (a + 8) (leBytes 8 time.toNat)).agentWrite (a + 3) [1] else s
      let s2 := s1.setFld (Reg.NET_SWTX_HEAD p) 0 10 ((head + 1) % size)
      if p = 2 then s2.satAdd Reg.MNET_TXOK 1 else s2)

/-! ### The stream table (R293, R294, R299) -/

/-- Word w of stream table entry n. -/
abbrev streamWord (n w : Nat) : Nat := Reg.NET_TABLE 0 (16 * n + w)

/-- A field of stream table entry n, by byte offset and size in bits. -/
def State.entry (s : State) (n o w : Nat) : Nat := s.fld (streamWord n (o / 4)) (8 * (o % 4)) w

/-- flags.enable of entry n. -/
def State.streamOn (s : State) (n : Nat) : Bool := s.bit (streamWord n 0) 16

/-- Entry n accepts a packet of a port, destination UDP port and VLAN tag (R293). -/
def State.streamMatch (s : State) (n port udp : Nat) (tag : Option Nat) : Bool :=
  let v := s.entry n 8 16
  s.streamOn n && s.bit (streamWord n 0) (17 + port) && s.entry n 0 16 == udp &&
    (nbit v 13 || (if nbit v 12 then tag == none else tag == some (v % 4096)))

/-- The per-stream statistic w of stream n counts k. -/
def State.streamStat (s : State) (n w k : Nat) : State := s.satAdd (Reg.NET_SSTAT n w) k

/-- Every field of entry n is in its stated range. -/
def State.streamOk (s : State) (n : Nat) : Bool :=
  let pt := s.entry n 3 8
  decide (1 ≤ s.fld (streamWord n 0) 17 2) && (decide (pt < 128) || pt == 0xFF) && decide (s.entry n 10 8 ≤ 3) &&
    decide (1 ≤ s.entry n 11 8) && decide (s.entry n 11 8 ≤ 6) && decide (16 ≤ s.entry n 12 16) && decide (s.entry n 12 16 ≤ 4096) &&
    decide (16 ≤ s.entry n 14 16) && decide (s.entry n 14 16 ≤ 2304) && s.regN (streamWord n 4) % 65536 == 0 &&
    decide (s.regN (streamWord n 5) < 256) && decide (16 ≤ s.entry n 24 8) && decide (s.entry n 24 8 ≤ 24) &&
    decide (1 ≤ s.entry n 25 8) && decide (1 ≤ s.entry n 26 8) && decide (4096 ≤ s.regN (streamWord n 7)) &&
    decide (s.regN (streamWord n 7) ≤ 0x800000)

/-- The bits of word w that a write of a disabled entry changes. -/
def streamMask (w : Nat) : Nat :=
  if w = 0 then 0xFF3FFFFF else if w = 2 then 0xFFFF3FFF
  else if w = 8 ∨ w = 9 ∨ w = 10 ∨ 12 ≤ w then 0 else 0xFFFFFFFF

/-- A write to word w of stream table entry n (R294). -/
def State.streamWrite (s : State) (n w v : Nat) : State :=
  let old := s.regN (streamWord n w)
  let rej := fun (t : State) => t.sticky (Reg.NET_STAT 0) 0
  if s.streamOn n then
    let other := w != 0 || (v &&& 0xFF3EFFFF) != (old &&& 0xFF3EFFFF)
    let s1 := if w = 0 ∧ v.testBit 16 = false then
        let r := s.recv n
        let cl := match r.au with | some a => a.ts :: r.closed | none => r.closed
        (s.putBit (streamWord n 0) 16 false).setRecv n { r with top := none, got := [], au := none, closed := cl.take 32 }
      else s
    if other then rej s1 else s1
  else
    let m := streamMask w
    let new := andNot old m ||| (v &&& m)
    let s1 := s.setRegN (streamWord n w) new
    if w = 0 ∧ new.testBit 16 = true ∧ s1.streamOk n = false then rej (s1.putBit (streamWord n 0) 16 false) else s1

/-- STREAM_ENTRY_WRITE: a write of 32 bits to the stream table. -/
def execStreamEntryWrite (n : Fin 512) (w : Fin 16) (v : Word) (s : State) : Out := .next (s.streamWrite n.val w.val v.toNat)

/-- NET_ANC_CMT.go: the anchor of a stream is replaced in one step (R299). -/
def State.anchorCommit (s : State) : State :=
  let n := s.fld (Reg.NET_ANC_STREAM 0) 0 9
  let s1 := (s.setReg64 (streamWord n 8) (s.reg64 (Reg.NET_ANC_NS_LO 0))).setReg (streamWord n 10) (s.reg (Reg.NET_ANC_RTP 0))
  { s1 with ingest := { s1.ingest with anchored := Tbl.set (fun _ => false) s1.ingest.anchored n true } }

/-- ANCHOR_COMMIT. -/
def execAnchorCommit (s : State) : Out := .next s.anchorCommit

/-- The capture time of R299 in RTP-mapped mode. -/
def captureRtp (ts aRtp aNs : Nat) : Nat :=
  let d : Nat := (ts + 2 ^ 32 - aRtp) % 2 ^ 32
  let sd : Int := if 2 ^ 31 ≤ d then (d : Int) - 2 ^ 32 else (d : Int)
  (((aNs : Int) + rheDiv (sd * 100000) 9) % ((2 ^ 64 : Nat) : Int)).toNat

/-- The capture time of an access unit of stream n (R299). -/
def State.auCapture (s : State) (n : Nat) (a : OpenAu) : Nat :=
  if s.bit (streamWord n 0) 21 = false ∧ Tbl.get (fun _ => false) s.ingest.anchored n = true then
    captureRtp a.ts (s.regN (streamWord n 10)) (s.reg64 (streamWord n 8))
  else (a.since + 2 ^ 64 - s.regN (streamWord n 11)) % 2 ^ 64

/-! ### NAL units (R296) -/

/-- NAL units gathered from packets: complete ones in order, the open fragmented one, and whether something outside the supported
subset was met. -/
structure Nals where
  units : List (List Nat)
  open_ : Option (List Nat)
  bad : Bool
  deriving DecidableEq, Repr

/-- NAL unit type of a unit. -/
def nalType (h265 : Bool) (u : List Nat) : Nat :=
  let b := u.getD 0 0
  if h265 then b / 2 % 64 else b % 32

/-- A NAL unit that may stand alone: no forbidden bit, a type of the supported subset. -/
def nalOk (h265 : Bool) (u : List Nat) : Bool :=
  let t := nalType h265 u
  !nbit (u.getD 0 0) 7 && (if h265 then decide (2 ≤ u.length) && decide (t ≤ 47) else decide (1 ≤ t) && decide (t ≤ 23))

/-- The units of an aggregation packet, each after its 16-bit size; none where a size does not fit. -/
def aggregate : Nat → List Nat → Option (List (List Nat))
  | _, [] => some []
  | 0, _ => none
  | k + 1, l =>
    let n := be l 0 2
    let r := l.drop 2
    if l.length < 2 ∨ n = 0 ∨ r.length < n then none else (aggregate k (r.drop n)).map (fun us => r.take n :: us)

/-- A fragment: header of the unit it belongs to, start and end bits, data. -/
def Nals.fragment (a : Nals) (first last : Bool) (head data : List Nat) : Nals :=
  match first, a.open_ with
  | true, some _ => { a with bad := true }
  | true, none => if last then { a with units := a.units ++ [head ++ data] } else { a with open_ := some (head ++ data) }
  | false, none => { a with bad := true }
  | false, some u => if last then { a with units := a.units ++ [u ++ data], open_ := none } else { a with open_ := some (u ++ data) }

/-- The payload of one packet joins the units. -/
def Nals.packet (h265 : Bool) (a : Nals) (p : List Nat) : Nals :=
  let b0 := p.getD 0 0
  let t := nalType h265 p
  let hl := if h265 then 2 else 1
  let fu := p.getD hl 0
  if nbit b0 7 = true ∨ p.length < hl then { a with bad := true }
  else if t = (if h265 then 48 else 24) then
    match aggregate p.length (p.drop hl) with
    | some us => if us.all (nalOk h265) then { a with units := a.units ++ us } else { a with bad := true }
    | none => { a with bad := true }
  else if t = (if h265 then 49 else 28) then
    let head := if h265 then [b0 / 128 * 128 + fu % 64 * 2 + b0 % 2, p.getD 1 0] else [b0 / 32 * 32 + fu % 32]
    if p.length ≤ hl ∨ (h265 = false ∧ nbit fu 5 = true) ∨ nalOk h265 head = false then { a with bad := true }
    else a.fragment (nbit fu 7) (nbit fu 6) head (p.drop (hl + 1))
  else if nalOk h265 p then { a with units := a.units ++ [p] }
  else { a with bad := true }

/-- The units of an access unit's packets in sequence-number order. -/
def nalsOf (h265 : Bool) (ps : List RtpPkt) : Nals := ps.foldl (fun a p => a.packet h265 p.payload) ⟨[], none, false⟩

/-- The Annex B byte stream: each unit after a 4-byte start code. -/
def annexB (us : List (List Nat)) : List Nat := us.flatMap (fun u => [0, 0, 0, 1] ++ u)

/-- Bytes that the packets take in the byte stream so far. -/
def Nals.size (a : Nals) : Nat := (annexB (a.units ++ a.open_.toList)).length

/-- Index flags irap, ref and param of the units (bits 1 to 3), by the NAL unit types of H.265 and H.264. -/
def nalFlags (h265 : Bool) (us : List (List Nat)) : Nat :=
  let ts := us.map (fun u => (nalType h265 u, u.getD 0 0))
  let irap := ts.any (fun (t, _) => if h265 then decide (16 ≤ t) && decide (t ≤ 23) else t == 5)
  let ref := ts.any (fun (t, b) => if h265 then (decide (t ≤ 9) && t % 2 == 1) || (decide (16 ≤ t) && decide (t ≤ 21))
    else (t == 1 || t == 5) && b / 32 % 4 != 0)
  let par := ts.any (fun (t, _) => if h265 then decide (32 ≤ t) && decide (t ≤ 34) else t == 7 || t == 8)
  (if irap then 2 else 0) + (if ref then 4 else 0) + (if par then 8 else 0)

/-! ### Stamping and the bitstream ring (R298 to R300) -/

/-- Bytes of the data area of stream n's ring. -/
def State.ringArea (s : State) (n : Nat) : Nat := 2 ^ s.entry n 24 8 - 2048

/-- Free bytes of the data area. -/
def State.ringRoom (s : State) (n : Nat) : Nat := s.ringArea n - ((s.recv n).kept.map (fun (_, l, _) => l)).sum

/-- Ring address of stream n. -/
def State.streamRing (s : State) (n : Nat) : Nat := s.reg64 (streamWord n 4)

/-- Writes data into the ring from the write position, wrapping to offset 2,048. -/
def State.ringPut (s : State) (n : Nat) (data : List Nat) : State :=
  let area := s.ringArea n
  let w := (s.recv n).write % area
  let b := s.streamRing n + 2048
  let one := data.take (area - w)
  let two := data.drop (area - w)
  let s1 := if one.isEmpty then s else s.agentWrite (b + w) one
  let s2 := if two.isEmpty then s1 else s1.agentWrite b two
  s2.setRecv n { s2.recv n with write := (w + data.length) % area }

/-- The 32 bytes of an access-unit index entry. -/
def indexEntry (n : Nat) (f : Stamped) : List Nat :=
  leBytes 8 (stampOf n f.frame 0) ++ leBytes 8 f.capture ++ leBytes 4 f.offset ++ leBytes 4 f.length ++ leBytes 4 f.rtp ++
    leBytes 2 f.flags ++ leBytes 2 (min f.lost 65535)

/-- Stamps an access unit that closes, or discards it. -/
def State.stampAu (s : State) (n : Nat) (a : OpenAu) (data : List Nat) (flags lost : Nat) : State :=
  let pend := Tbl.get (fun _ => []) s.ingest.pend n
  if s.weaveState ≠ 4 ∨ s.weave.bound.contains n = false then s.satAdd (Reg.NET_UNBOUND a.port) 1
  else if 64 ≤ pend.length then (if nbit flags 0 then s.streamStat n 1 1 else s)
  else
    let k := Tbl.get (fun _ => 0) s.weave.nextFrame n
    let f : Stamped := { frame := k, capture := s.auCapture n a, outcome := 0, flags := flags, lost := lost, rtp := a.ts, offset := 2048 + (s.recv n).write % s.ringArea n, length := data.length, buffer := none, out := none, after := s.bit Reg.WV_STATUS 6 }
    let s1 := ((s.ringPut n data).agentWrite (s.streamRing n + 32 * (k % 64)) (indexEntry n f)).streamStat n 0 1
    let r := s1.recv n
    let s2 := s1.setRecv n { r with kept := r.kept ++ [(k, data.length, false)] }
    { s2 with
      ingest := { s2.ingest with pend := Tbl.set (fun _ => []) s2.ingest.pend n (pend ++ [f]) },
      weave := { s2.weave with nextFrame := Tbl.set (fun _ => 0) s2.weave.nextFrame n ((k + 1) % 2 ^ 32) } }

/-! ### Reassembly (R295, R297) -/

/-- The position of sequence number q: numbers are unwrapped from 65,536 on. -/
def seqPos (top : Option Nat) (q : Nat) : Nat :=
  match top with
  | none => 65536 + q
  | some h =>
    let d := (q + 65536 - h % 65536) % 65536
    if d < 32768 then h + d else h + d - 65536

/-- A packet in order of position. -/
def insertPkt (p : RtpPkt) : List RtpPkt → List RtpPkt
  | [] => [p]
  | x :: xs => if p.pos < x.pos then p :: x :: xs else x :: insertPkt p xs

/-- Positions of an access unit, from its first packet to its marker or to the last number given, that have not arrived. -/
def OpenAu.missing (a : OpenAu) (last : Nat) : Nat :=
  let lo := match a.pkts with | p :: _ => p.pos | [] => last
  let hi := match a.pkts.find? (fun p => p.marker) with | some p => p.pos | none => last
  (hi + 1 - lo) - (a.pkts.filter (fun p => decide (p.pos ≤ hi))).length

/-- The access unit under reassembly of stream n closes; forced: it does not close complete. last is the last number of an
access unit whose marker has not arrived. -/
def State.closeAu (s : State) (n : Nat) (a : OpenAu) (last : Nat) (forced : Bool) : State :=
  let h265 := s.bit (streamWord n 0) 20
  let ns := nalsOf h265 a.pkts
  let lost := a.missing last
  let all := annexB ns.units
  let limit := min (s.regN (streamWord n 7)) (s.ringRoom n)
  let data := all.take limit
  let whole := !forced && lost == 0 && !ns.bad && ns.open_.isNone && decide (all.length ≤ limit)
  let r := s.recv n
  let s1 := (s.setRecv n { r with au := none, closed := (a.ts :: r.closed).take 32 }).streamStat n 2 lost
  let s2 := if whole then s1 else s1.streamStat n 1 1
  s2.stampAu n a data ((if whole then 1 else 0) + nalFlags h265 ns.units) lost

/-- The highest position of an access unit's packets. -/
def OpenAu.top (a : OpenAu) : Nat := a.pkts.foldl (fun m p => max m p.pos) 0

/-- A packet joins the open access unit of stream n, which may close (R297). -/
def State.joinAu (s : State) (n : Nat) (a : OpenAu) (p : RtpPkt) : State :=
  let a1 := { a with pkts := insertPkt p a.pkts }
  let s1 := s.setRecv n { s.recv n with au := some a1 }
  let h265 := s.bit (streamWord n 0) 20
  if min (s.regN (streamWord n 7)) (s.ringRoom n) < (nalsOf h265 a1.pkts).size then s1.closeAu n a1 a1.top true
  else if a1.pkts.any (fun q => q.marker) && a1.missing a1.top == 0 then s1.closeAu n a1 a1.top false
  else s1

/-- A packet that is dropped as late or as a duplicate. -/
def State.dropPkt (s : State) (n port : Nat) (dup : Bool) : State :=
  (s.satAdd (if dup then Reg.NET_DUPPKT port else Reg.NET_LATEPKT port) 1).streamStat n 3 1

/-- An RTP packet of stream n (R295, R297). -/
def State.rtpPacket (s : State) (n port q ts : Nat) (marker : Bool) (payload : List Nat) (time : Nat) : State :=
  let r := s.recv n
  let pos := seqPos r.top q
  let p : RtpPkt := ⟨pos, marker, payload⟩
  let ahead : Bool := match r.top with | none => true | some h => decide (h < pos)
  if ahead then
    let s1 := s.setRecv n { r with top := some pos, got := pos :: r.got.filter (fun x => decide (pos < x + 32)) }
    match r.au with
    | some a =>
      if a.ts = ts then s1.joinAu n a p
      else
        let s2 := s1.closeAu n a (pos - 1) false
        if (s2.recv n).closed.contains ts then s2.dropPkt n port false else s2.joinAu n ⟨ts, time, port, []⟩ p
    | none => if r.closed.contains ts then s1.dropPkt n port false else s1.joinAu n ⟨ts, time, port, []⟩ p
  else if r.got.contains pos then s.dropPkt n port true
  else match r.top, r.au with
    | some h, some a =>
      if h < pos + 32 ∧ a.ts = ts then (s.setRecv n { r with got := pos :: r.got }).joinAu n a p
      else if h < pos + 32 then (s.setRecv n { r with got := pos :: r.got }).dropPkt n port false
      else s.dropPkt n port false
    | some h, none => (if h < pos + 32 then s.setRecv n { r with got := pos :: r.got } else s).dropPkt n port false
    | none, _ => s

/-- A UDP payload that entry n matched: rows 6 to 8 of the classification. -/
def State.rtpFrame (s : State) (n port : Nat) (d : List Nat) (time : Nat) : State :=
  let b0 := d.getD 0 0
  let b1 := d.getD 1 0
  let cs := 12 + 4 * (b0 % 16)
  let hl := if nbit b0 4 then cs + 4 + 4 * be d (cs + 2) 2 else cs
  let tail := if nbit b0 5 then d.getLastD 0 else 0
  let pt := s.entry n 3 8
  let ssrc := be d 8 4
  if d.length < 12 ∨ b0 / 64 ≠ 2 ∨ (pt ≠ 0xFF ∧ b1 % 128 ≠ pt) ∨ d.length < hl + tail then s.satAdd (Reg.NET_DROPRTP port) 1
  else
    let any := s.bit (streamWord n 0) 19
    if any = false ∧ s.regN (streamWord n 1) ≠ ssrc then s.satAdd (Reg.NET_SSRCERR port) 1
    else
      let s1 := if any then (s.setRegN (streamWord n 1) ssrc).putBit (streamWord n 0) 19 false else s
      (s1.satAdd (Reg.NET_RXRTP port) 1).rtpPacket n port (be d 2 2) (be d 4 4) (nbit b1 7) ((d.drop hl).take (d.length - hl - tail)) time

/-- ETHERNET_FRAME_RECEIVE: a frame with its FCS reaches a port; time is its hardware timestamp (R292, R293, R299). -/
def execEthernetFrameReceive (port : Fin 2) (time : BitVec 64) (frame : List (BitVec 8)) (s : State) : Out :=
  .next (
    let p := port.val
    let f := frame.map (fun b => b.toNat)
    let body := f.take (f.length - 4)
    if s.bit (Reg.NET_CTRL p) 0 = false ∨ s.macOk p f = false then s
    else if f.length < 64 ∨ 9216 < f.length ∨ crc32 body ≠ leVal (f.drop (f.length - 4)) then s.satAdd (Reg.NET_RXBAD p) 1
    else match tagOf body with
      | none => s.satAdd (Reg.NET_RXBAD p) 1
      | some (tag, type, o) =>
        match classify type (body.drop o) with
        | .toSw => s.toSoftware p body time.toNat
        | .dropIp => s.satAdd (Reg.NET_DROPIP p) 1
        | .dropCsum => s.satAdd (Reg.NET_DROPCSUM p) 1
        | .udp dst d => match (List.range 512).find? (fun n => s.streamMatch n p dst tag) with
          | none => s.toSoftware p body time.toNat
          | some n => s.rtpFrame n p d time.toNat)

/-- REASSEMBLY_TIMEOUT: the timeout of stream n has elapsed since the first packet of its open access unit (R297). -/
def execReassemblyTimeout (n : Fin 512) (s : State) : Out :=
  .next (match (s.recv n.val).au with
    | some a => if a.since + 1000000 * s.entry n.val 25 8 < s.time + 1000 then s.closeAu n.val a a.top true else s
    | none => s)

end Sys2Proof.Machine
end

