-- ==== Sys2Proof/Machine/HostOps.lean ====
section
/-! DEFINITION. The steward mailbox (19_host_interfaces.md R498, R499), NVM writes and the management port
(18_object_dictionary.md R479, R480). -/

namespace Sys2Proof.Machine

/-! ### The steward mailbox (R498, R499) -/

/-- The holder that a bus master counts as: the eight application cores are one. -/
def holderOf (master : Nat) : Nat := if 0x50 ≤ master ∧ master ≤ 0x57 then 0x50 else master

/-- The mailbox is held by a master. -/
def State.holds (s : State) (master : Nat) : Bool := s.bit Reg.STW_CLAIM 0 && s.fld Reg.STW_CLAIM 8 8 == holderOf master

/-- A write to the mailbox was ignored. -/
def State.stwRej (s : State) : State := s.sticky Reg.STW_STATUS 2

/-- Session k of the dictionary, none while it is not open; 8 is the mailbox session. -/
def State.session (s : State) (k : Nat) : Option Session := Tbl.get (fun _ => none) s.dict.sessions k

/-- Sets or closes session k. -/
def State.setSession (s : State) (k : Nat) (v : Option Session) : State :=
  { s with dict := { s.dict with sessions := Tbl.set (fun _ => none) s.dict.sessions k v } }

/-- A write of 1 to STW_CLAIM: the free mailbox is claimed and its session opens. -/
def State.claim (s : State) (master : Nat) : State :=
  if s.bit Reg.STW_CLAIM 0 then (if s.holds master then s else s.stwRej)
  else ((s.setRegN Reg.STW_CLAIM (1 + 256 * holderOf master)).setSession 8 (some Session.init)).logEvent 0x608 0 0x51 0x18 0

/-- MAILBOX_CLAIM. -/
def execMailboxClaim (master : BitVec 8) (s : State) : Out := .next (s.claim master.toNat)

/-- A write of 0 to STW_CLAIM: the holder's session ends, with what waits for it. -/
def State.releaseClaim (s : State) (master : Nat) : State :=
  if s.holds master then
    let s1 := (((s.setRegN Reg.STW_CLAIM 0).putBit Reg.STW_STATUS 0 false).putBit Reg.STW_STATUS 1 false).setSession 8 none
    { s1 with host := { s1.host with rsp := [] } }
  else s.stwRej

/-- MAILBOX_RELEASE. -/
def execMailboxRelease (master : BitVec 8) (s : State) : Out := .next (s.releaseClaim master.toNat)

/-- A write of 1 to STW_REQ_GO. -/
def State.requestGo (s : State) (master : Nat) : State :=
  if s.holds master = false ∨ s.bit Reg.STW_STATUS 0 = true then s.stwRej else s.putBit Reg.STW_STATUS 0 true

/-- MAILBOX_REQUEST_GO. -/
def execMailboxRequestGo (master : BitVec 8) (s : State) : Out := .next (s.requestGo master.toNat)

/-- The oldest waiting message moves into a free STW_RSP. -/
def State.nextRsp (s : State) : State :=
  if s.bit Reg.STW_STATUS 1 then s
  else match s.host.rsp with
    | [] => s
    | m :: r => ({ s with host := { s.host with rsp := r } }).setRegBytes (Reg.STW_RSP 0) m |>.putBit Reg.STW_STATUS 1 true

/-- The steward sends a message through the mailbox. -/
def State.mailboxSend (s : State) (m : List Nat) : State := ({ s with host := { s.host with rsp := s.host.rsp ++ [m] } }).nextRsp

/-- A write of 1 to STW_RSP_ACK. -/
def State.responseAck (s : State) (master : Nat) : State :=
  if s.holds master then (s.putBit Reg.STW_STATUS 1 false).nextRsp else s.stwRej

/-- MAILBOX_RESPONSE_ACK. -/
def execMailboxResponseAck (master : BitVec 8) (s : State) : Out := .next (s.responseAck master.toNat)

/-- A write to a register of the mailbox block. -/
def State.stwWrite (s : State) (a v master : Nat) : State :=
  if a = Reg.STW_CLAIM then (if v.testBit 0 then s.claim master else s.releaseClaim master)
  else if a = Reg.STW_REQ_GO then (if v.testBit 0 ∨ s.holds master = false then s.requestGo master else s)
  else if a = Reg.STW_RSP_ACK then (if v.testBit 0 ∨ s.holds master = false then s.responseAck master else s)
  else if Reg.STW_REQ 0 ≤ a ∧ a < Reg.STW_REQ 260 then (if s.holds master then s.setRegN a v else s.stwRej)
  else s.plainWrite a v master

/-! ### NVM (R479) -/

/-- Home of NVM byte 0. -/
def nvmBase : Nat := 0x1401000000

/-- A write to NVM_ was ignored. -/
def State.nvmRej (s : State) : State := s.sticky Reg.NVM_STATUS 1

/-- A write of NVM_WCTRL. -/
def State.nvmWrite (s : State) (v master : Nat) : State :=
  if master ≠ 0x61 ∨ s.bit Reg.NVM_STATUS 0 = true then s.nvmRej
  else if v.testBit 31 = false then s
  else
    let n := v % 128
    let off := s.regN Reg.NVM_WADDR
    if n = 0 ∨ 64 < n ∨ 256 < off % 256 + 4 * n then s.nvmRej
    else
      let ws := (List.range n).map (fun i => s.regN (Reg.NVM_WBUF i))
      ({ s with host := { s.host with nvm := some (off, ws) } }).putBit Reg.NVM_STATUS 0 true

/-- NVM_WRITE. -/
def execNvmWrite (v : Word) (master : BitVec 8) (s : State) : Out := .next (s.nvmWrite v.toNat master.toNat)

/-- NVM_WRITE_DONE: the words hold their new values; after a failed read-back they are free values. -/
def execNvmWriteDone (err : Bool) (s : State) : Out :=
  .next (match s.host.nvm with
    | none => s
    | some (off, ws) =>
      let s1 := (({ s with host := { s.host with nvm := none } }).putBit Reg.NVM_STATUS 0 false).satAdd Reg.NVM_WRITES 1
      if err then
        let r := s1.freeBytes (4 * ws.length)
        (r.2.setBytes (nvmBase + off) r.1).sticky Reg.NVM_STATUS 2
      else s1.setBytes (nvmBase + off) (ws.flatMap (leBytes 4)))

/-- A write to a register of the NVM block. -/
def State.nvmRegWrite (s : State) (a v master : Nat) : State :=
  if a = Reg.NVM_WCTRL then s.nvmWrite v master
  else if a = Reg.NVM_WADDR ∨ Reg.NVM_WBUF 0 ≤ a ∧ a < Reg.NVM_WBUF 64 then
    (if master ≠ 0x61 ∨ s.bit Reg.NVM_STATUS 0 = true then s.nvmRej else s.plainWrite a v master)
  else s.plainWrite a v master

/-! ### MDIO and the management port (R480) -/

/-- A write of MNET_MDIO_CTRL. -/
def State.mdioWrite (s : State) (v : Nat) : State :=
  if v.testBit 31 = false then s
  else if s.bit Reg.MNET_MDIO_STAT 0 then s.sticky Reg.MNET_MDIO_STAT 2
  else ({ s with host := { s.host with mdio := some v } }).putBit Reg.MNET_MDIO_STAT 0 true

/-- MDIO_COMMAND. -/
def execMdioCommand (v : Word) (s : State) : Out := .next (s.mdioWrite v.toNat)

/-- MDIO_FRAME_DONE: the frame ends; a read leaves its data. -/
def execMdioFrameDone (data : BitVec 16) (s : State) : Out :=
  .next (match s.host.mdio with
    | none => s
    | some v =>
      let s1 := (({ s with host := { s.host with mdio := none } }).putBit Reg.MNET_MDIO_STAT 0 false).sticky Reg.MNET_MDIO_STAT 1
      if v.testBit 10 then s1.setRegN Reg.MNET_MDIO_DATA data.toNat else s1)

/-- MNET_FRAME_RECEIVE: a frame with its FCS reaches MNET; time is its timestamp (R299). -/
def execMnetFrameReceive (time : BitVec 64) (frame : List (BitVec 8)) (s : State) : Out :=
  .next (
    let f := frame.map (fun b => b.toNat)
    let body := f.take (f.length - 4)
    let most := if be f 12 2 = 0x8100 then 1522 else 1518
    if s.bit Reg.MNET_CTRL 0 = false ∨ s.macOk 2 f = false then s
    else if f.length < 64 ∨ most < f.length ∨ crc32 body ≠ leVal (f.drop (f.length - 4)) then s.satAdd Reg.MNET_RXBAD 1
    else
      let r := (s.satAdd Reg.MNET_RXOK 1).swDeliver 2 body time.toNat
      if r.1 then r.2 else r.2.satAdd Reg.MNET_DROP 1)

end Sys2Proof.Machine
end

