-- ==== Sys2Proof/Machine/P384.lean ====
section
/-! DEFINITION. Curve P-384 and the check of an ECDSA signature on it (00_scope.md, companion standards: FIPS 186-5). -/

namespace Sys2Proof.Machine

/-- The field's prime, the order of the group, the curve's coefficient b and the base point (FIPS 186-5). -/
def p384Prime : Nat := 2 ^ 384 - 2 ^ 128 - 2 ^ 96 + 2 ^ 32 - 1
def p384Order : Nat :=
  0xFFFFFFFFFFFFFFFFFFFFFFFFFFFFFFFFFFFFFFFFFFFFFFFFC7634D81F4372DDF581A0DB248B0A77AECEC196ACCC52973
def p384B : Nat :=
  0xB3312FA7E23EE7E4988E056BE3F82D19181D9C6EFE8141120314088F5013875AC656398D8A2ED19D2A85C8EDD3EC2AEF
def p384Gx : Nat :=
  0xAA87CA22BE8B05378EB1C71EF320AD746E1D3B628BA79B9859F741E082542A385502F25DBF55296C3A545E3872760AB7
def p384Gy : Nat :=
  0x3617DE4A96262C6F5D9E98BF9292DC29F8F41DBD289A147CE9DA3113B5F0B8C00A60B1CE1D7E819D7A431D7C90EA0E5F

/-- A point in Jacobian coordinates: (x / z^2, y / z^3), the neutral element with z = 0. -/
structure EcPoint where
  x : Nat
  y : Nat
  z : Nat
  deriving DecidableEq, Repr

/-- Difference and product in the field. -/
def fpSub (a b : Nat) : Nat := (a + p384Prime - b % p384Prime) % p384Prime
def fpMul (a b : Nat) : Nat := a * b % p384Prime

/-- The bits of a 384-bit number, the highest first. -/
def bits384 (k : Nat) : List Bool := (List.range 384).map (fun i => k.testBit (383 - i))

/-- a^k modulo m. -/
def powMod (m a k : Nat) : Nat := (bits384 k).foldl (fun r b => if b then r * r % m * a % m else r * r % m) 1

/-- Twice a point of a curve with coefficient a = -3. -/
def EcPoint.double (p : EcPoint) : EcPoint :=
  let zz := fpMul p.z p.z
  let yy := fpMul p.y p.y
  let s := fpMul 4 (fpMul p.x yy)
  let m := fpMul 3 (fpMul (fpSub p.x zz) (p.x + zz))
  let x := fpSub (fpMul m m) (2 * s)
  ⟨x, fpSub (fpMul m (fpSub s x)) (fpMul 8 (fpMul yy yy)), fpMul 2 (fpMul p.y p.z)⟩

/-- The sum of two points. -/
def EcPoint.add (p q : EcPoint) : EcPoint :=
  if p.z = 0 then q
  else if q.z = 0 then p
  else
    let pz := fpMul p.z p.z
    let qz := fpMul q.z q.z
    let u1 := fpMul p.x qz
    let s1 := fpMul p.y (fpMul q.z qz)
    let h := fpSub (fpMul q.x pz) u1
    let r := fpSub (fpMul q.y (fpMul p.z pz)) s1
    if h = 0 then (if r = 0 then p.double else ⟨1, 1, 0⟩)
    else
      let hh := fpMul h h
      let hhh := fpMul h hh
      let v := fpMul u1 hh
      let x := fpSub (fpSub (fpMul r r) hhh) (2 * v)
      ⟨x, fpSub (fpMul r (fpSub v x)) (fpMul s1 hhh), fpMul h (fpMul p.z q.z)⟩

/-- k times a point. -/
def EcPoint.mul (k : Nat) (p : EcPoint) : EcPoint :=
  (bits384 k).foldl (fun r b => if b then r.double.add p else r.double) ⟨1, 1, 0⟩

/-- The affine coordinates of a point that is not neutral. -/
def EcPoint.affine (p : EcPoint) : Nat × Nat :=
  let i := powMod p384Prime p.z (p384Prime - 2)
  let ii := fpMul i i
  (fpMul p.x ii, fpMul p.y (fpMul i ii))

/-- The base point. -/
def p384G : EcPoint := ⟨p384Gx, p384Gy, 1⟩

/-- The public key of a private key: x then y, big-endian (17 R445). -/
def p384Public (d : Nat) : List Nat :=
  let q := (p384G.mul d).affine
  beBytes 48 q.1 ++ beBytes 48 q.2

/-- Coordinates of a public key: below the prime, and on the curve (FIPS 186-5's validation of a public key). -/
def p384OnCurve (x y : Nat) : Bool :=
  decide (x < p384Prime) && decide (y < p384Prime) &&
    fpMul y y == (fpSub (fpMul x (fpMul x x)) (3 * x) + p384B) % p384Prime

/-- A signature, r then s, of a digest verifies under a public key, x then y (17 R440; FIPS 186-5). -/
def p384Verify (key digest sig : List Nat) : Bool :=
  let x := beVal (key.take 48)
  let y := beVal (key.drop 48)
  let r := beVal (sig.take 48)
  let s := beVal (sig.drop 48)
  let w := powMod p384Order s (p384Order - 2)
  let p := (p384G.mul (beVal digest * w % p384Order)).add (EcPoint.mul (r * w % p384Order) ⟨x, y, 1⟩)
  p384OnCurve x y && decide (1 ≤ r) && decide (r < p384Order) && decide (1 ≤ s) && decide (s < p384Order) && p.z != 0 &&
    p.affine.1 % p384Order == r

end Sys2Proof.Machine
end

