-- ==== Sys2Proof/Machine/Gpio.lean ====
section
/-! DEFINITION. The general-purpose pins (20_package_and_electrical.md R514 to R516; 16 R424) and the PPS output (11 R311). -/

namespace Sys2Proof.Machine

/-- Fused state of GPIO n (R424): pin 37 + n of the pin order. -/
def State.pinState (s : State) (n : Nat) : Nat := s.fld (Reg.FUSE_PINST ((37 + n) / 10)) (3 * ((37 + n) % 10)) 3

/-- Level of GPIO n, none while the clock observation output drives it (R514, R515). -/
def State.pinLevel (s : State) (n : Nat) : Option Bool :=
  let ext := s.host.gpioExt.testBit n
  if s.bit Reg.TBS_PPS 0 && s.fld Reg.TBS_PPS 1 5 == n then some s.host.pps
  else if s.bit Reg.CLK_OBS 15 && s.fld Reg.CLK_OBS 10 5 == n then none
  else if s.host.gpioFree then
    (if s.bit Reg.GPIO_DIR n then some (if s.bit Reg.GPIO_OUT n then (if s.bit Reg.GPIO_ODRAIN n then ext else true) else false)
     else some ext)
  else if s.pinState n = 3 then some false
  else if s.pinState n = 4 then some true
  else some ext

/-- The status bit of GPIO n after its level went from was to now (R516): an edge of the chosen direction, or the chosen level. -/
def State.pinIrq (s : State) (n : Nat) (was now : Bool) : State :=
  let low := s.bit Reg.GPIO_IRQ_POL n
  let hit := if s.bit Reg.GPIO_IRQ_TYPE n then was != now && now != low else now != low
  s.stickyIf hit Reg.GPIO_IRQ_STATUS n

/-- GPIO_IN follows the pins, and GPIO_IRQ_STATUS their edges and levels. A pin that carries the observed clock keeps its bits. -/
def State.gpioSettle (s : State) : State :=
  (List.range 32).foldl (fun t n =>
    match s.pinLevel n with
    | none => t
    | some now => (t.putBit Reg.GPIO_IN n now).pinIrq n (s.bit Reg.GPIO_IN n) now) s

/-- A write of GPIO_DIR: the first one after the reset releases the fused states. -/
def State.gpioDir (s : State) (v : Nat) : State :=
  ({ s with host := { s.host with gpioFree := true } }).setRegN Reg.GPIO_DIR v |>.gpioSettle

/-- GPIO_DIR_WRITE. -/
def execGpioDirWrite (v : Word) (s : State) : Out := .next (s.gpioDir v.toNat)

/-- A write of GPIO_SET. -/
def State.gpioSet (s : State) (v : Nat) : State := (s.setRegN Reg.GPIO_OUT (s.regN Reg.GPIO_OUT ||| v)).gpioSettle

/-- GPIO_SET. -/
def execGpioSet (v : Word) (s : State) : Out := .next (s.gpioSet v.toNat)

/-- A write of GPIO_CLR. -/
def State.gpioClr (s : State) (v : Nat) : State := (s.setRegN Reg.GPIO_OUT (andNot (s.regN Reg.GPIO_OUT) (s.regN Reg.GPIO_OUT &&& v))).gpioSettle

/-- GPIO_CLR. -/
def execGpioClr (v : Word) (s : State) : Out := .next (s.gpioClr v.toNat)

/-- GPIO_INPUT_EDGE: an agent outside changes the level at GPIO n. -/
def execGpioInputEdge (n : Fin 32) (level : Bool) (s : State) : Out :=
  .next (({ s with host := { s.host with gpioExt := putField s.host.gpioExt n.val 1 (if level then 1 else 0) } }).gpioSettle)

/-- PPS_PULSE: the pulse of TBS_PPS begins at a whole second of the timebase and ends 1 ms later (R311). -/
def execPpsPulse (high : Bool) (s : State) : Out :=
  .next (
    let r := s.time % 1000000000
    if s.bit Reg.TBS_PPS 0 = false ∨ (high = true ∧ 1000000 ≤ r) ∨ (high = false ∧ r < 1000000) then s
    else ({ s with host := { s.host with pps := high } }).gpioSettle)

end Sys2Proof.Machine
end

