-- ==== Sys2Proof/Machine/Hub.lean ====
section
/-! DEFINITION. The interrupt hub, MSI-X and the doorbells (19_host_interfaces.md R483 to R485, R490). -/

namespace Sys2Proof.Machine

/-! ### Hub sources (R484) -/

/-- A status and an enable register share a set bit. -/
def State.share (s : State) (status enable : Nat) : Bool := (s.regN status &&& s.regN enable) != 0

/-- The condition of hub source n (Table, Hub sources). -/
def State.hubSource (s : State) (n : Nat) : Bool :=
  match n with
  | 0 => s.share Reg.WV_IRQ_STATUS Reg.WV_IRQ_EN
  | 1 => s.share Reg.WV_JOBIRQ Reg.WV_JOBIRQ_EN
  | 2 => (List.range 3).any (fun i => s.share (Reg.blk 0x41 + 4 * i) (Reg.blk 0x41 + 0x10 + 4 * i))
  | 3 => s.share Reg.VDEC_IRQ_STATUS Reg.VDEC_IRQ_EN
  | 4 => s.share (Reg.VENC_IRQ 0) (Reg.VENC_IRQ_EN 0)
  | 5 => s.share (Reg.VENC_IRQ 1) (Reg.VENC_IRQ_EN 1)
  | 6 => s.share (Reg.PIX_IRQ_STATUS 0) (Reg.PIX_IRQ_EN 0)
  | 7 => s.share (Reg.PIX_IRQ_STATUS 1) (Reg.PIX_IRQ_EN 1)
  | 8 => s.share (Reg.PIX_IRQ_STATUS 2) (Reg.PIX_IRQ_EN 2)
  | 9 => s.share (Reg.PIX_IRQ_STATUS 3) (Reg.PIX_IRQ_EN 3)
  | 10 => s.share Reg.ISP_IRQ_STATUS Reg.ISP_IRQ_EN
  | 11 => s.share Reg.DMC_IRQ_STATUS Reg.DMC_IRQ_EN
  | 12 => s.share Reg.RAS_IRQ_STATUS Reg.RAS_IRQ_EN
  | 13 => s.bit Reg.SCRB_STATUS 3
  | 14 => s.share Reg.PWR_IRQ_STATUS Reg.PWR_IRQ_EN
  | 15 => s.share Reg.CLK_IRQ_STATUS Reg.CLK_IRQ_EN
  | 16 => s.share Reg.RST_IRQ_STATUS Reg.RST_IRQ_EN
  | 17 => s.regN (Reg.NET_SWRX_TAIL 0) != s.regN (Reg.NET_SWRX_HEAD 0)
  | 18 => s.regN (Reg.NET_SWRX_TAIL 1) != s.regN (Reg.NET_SWRX_HEAD 1)
  | 19 => s.regN Reg.PCIE_H2A != 0
  | 20 => s.regN Reg.PCIE_A2H != 0
  | 21 => s.bit Reg.STW_STATUS 1
  | 22 => s.bit Reg.SEC_STATUS 1
  | 23 => s.share Reg.GPIO_IRQ_STATUS Reg.GPIO_IRQ_EN
  | 24 => s.bit Reg.PMB_STATUS 3
  | n => decide (25 ≤ n) && decide (n ≤ 31) && s.bit Reg.HCX_SWINT (n - 25)

/-- HCX_PEND: the sources that are pending. -/
def State.hubPend (s : State) : Nat := (List.range 32).foldl (fun v n => if s.hubSource n then v + 2 ^ n else v) 0

/-- HCX_CPENDn: the pending sources that are routed to application core n. -/
def State.hubCore (s : State) (core : Nat) : Nat :=
  (List.range 32).foldl (fun v n => if s.hubSource n && s.bit (Reg.HCX_ROUTE n) core then v + 2 ^ n else v) 0

/-! ### MSI-X (R485) -/

/-- Vector v is asserted: a pending source drives it. -/
def State.vectorUp (s : State) (v : Nat) : Bool :=
  (List.range 32).any (fun n => s.bit (Reg.HCX_ROUTE n) 21 && s.fld (Reg.HCX_ROUTE n) 16 5 == v && s.hubSource n)

/-- Vector v may send: MSI-X is enabled and the vector is not masked. -/
def State.vectorOpen (s : State) (v : Nat) : Bool := s.bit Reg.PCIE_STATUS 9 && !s.bit (Reg.PCIE_MSIX_CTRL v) 0

/-- Vector v's message is sent and its PBA bit clears. -/
def State.sendMsi (s : State) (v : Nat) : State :=
  ({ s with host := { s.host with msi := s.host.msi ++ [(s.reg64 (Reg.PCIE_MSIX_ADDR_LO v), s.regN (Reg.PCIE_MSIX_DATA v))] } }).putBit
    Reg.PCIE_PBA v false

/-- Vector v against what was asserted when the vectors were last looked at: a vector that has become asserted sends its message or
sets its PBA bit, one that has stopped clears the bit. -/
def State.msiVector (s : State) (v : Nat) : State :=
  if s.vectorUp v then
    (if s.host.vectors.contains v then s else if s.vectorOpen v then s.sendMsi v else s.putBit Reg.PCIE_PBA v true)
  else s.putBit Reg.PCIE_PBA v false

/-- The endpoint looks at the vectors. Nothing changes while no source drives a vector and none did. -/
def State.hostSync (s : State) : State :=
  if s.host.vectors.isEmpty && s.regN Reg.PCIE_PBA == 0 && (List.range 32).all (fun n => !s.bit (Reg.HCX_ROUTE n) 21) then s
  else
    let s1 := (List.range 32).foldl State.msiVector s
    { s1 with host := { s1.host with vectors := (List.range 32).filter s1.vectorUp } }

/-- A command during which the endpoint looks at the vectors: the messages sent are those of the command. -/
def State.watched (s : State) (f : State → State) : State := (f ({ s with host := { s.host with msi := [] } }).hostSync).hostSync

/-- A write of PCIE_EOI. -/
def State.eoi (s : State) (v : Nat) : State :=
  let n := v % 32
  if s.vectorUp n && s.vectorOpen n then s.sendMsi n else s

/-- PCIE_EOI. -/
def execPcieEoi (v : Word) (s : State) : Out := .next (s.watched (fun t => t.eoi v.toNat))

/-- A write of the vector control of vector n: unmasking it while asserted with its PBA bit set sends its message. -/
def State.maskWrite (s : State) (n v : Nat) : State :=
  let s1 := s.putBit (Reg.PCIE_MSIX_CTRL n) 0 (v.testBit 0)
  if s1.vectorUp n && s1.vectorOpen n && s1.bit Reg.PCIE_PBA n then s1.sendMsi n else s1

/-- MSIX_UNMASK: a write of 0 to the vector control of vector n. -/
def execMsixUnmask (n : Fin 32) (s : State) : Out := .next (s.watched (fun t => t.maskWrite n.val 0))

/-! ### Doorbells (R490) -/

/-- A write of PCIE_H2A_SET or PCIE_A2H_SET. -/
def State.ring (s : State) (bell v : Nat) : State := s.setRegN bell (s.regN bell ||| v)

/-- H2A_SET. -/
def execH2aSet (v : Word) (s : State) : Out := .next (s.ring Reg.PCIE_H2A v.toNat)

/-- A2H_SET. -/
def execA2hSet (v : Word) (s : State) : Out := .next (s.ring Reg.PCIE_A2H v.toNat)

/-! ### Application cores (R483) -/

/-- A write of HCX_RELEASE or HCX_RVEC: from the steward only; a release bit is never cleared. -/
def State.hcxWrite (s : State) (a v master : Nat) : State :=
  if master ≠ 0x61 then s.sticky Reg.HCX_STAT 0
  else if a = Reg.HCX_RELEASE then s.setRegN a (s.regN a ||| v % 256)
  else s.plainWrite a v master

/-- APP_CORE_RELEASE. -/
def execAppCoreRelease (v : Word) (master : BitVec 8) (s : State) : Out := .next (s.hcxWrite Reg.HCX_RELEASE v.toNat master.toNat)

/-! ### Ring read indices (R493) -/

/-- A write of RING_RP of ring r. -/
def State.rpWrite (s : State) (r v : Nat) : State :=
  if 64 ≤ r then s
  else
    let wp := s.regN (Reg.RING_WP r)
    let rp := s.regN (Reg.RING_RP r)
    if (v + 2 ^ 32 - rp) % 2 ^ 32 ≤ (wp + 2 ^ 32 - rp) % 2 ^ 32 then s.setRegN (Reg.RING_RP r) v else s.sticky (Reg.RING_STAT r) 1

/-- RING_RP_WRITE. -/
def execRingRpWrite (r : BitVec 8) (v : Word) (s : State) : Out := .next (s.rpWrite r.toNat v.toNat)

end Sys2Proof.Machine
end

