-- ==== Sys2Proof/Machine/Boundary.lean ====
section
/-! DEFINITION. The pick boundary and what follows lag: acknowledgement, the lag limit, and the switch of a role to the spare
(02_the_weave.md R43, R49; 14_resilience_and_failover.md R372 to R378; 06 R162, R179; 08 R224, R232). -/

namespace Sys2Proof.Machine

/-! ### Lag (R49) -/

/-- The weave runs ticks in which roles owe acknowledgements. -/
def State.ticking (s : State) : Bool :=
  let w := s.weaveState
  (w == 4 && !s.weave.stopping && !s.bit Reg.WV_STATUS 6) || (w == 6 && s.weave.hedgeAt.isNone && s.weave.active.isSome)

/-- The lag of logical core l at the present pick boundary: the picks before it that its core has not acknowledged, 3 at most;
none where no running core holds the role. -/
def State.lagNow (s : State) (l : Nat) : Option Nat :=
  match s.physOf l, s.roleSec l with
  | some p, some _ =>
    if s.ticking = false ∨ s.coreState p = 3 ∨ s.failingOver l = true then none
    else some (min 3 (s.pickNow - (s.core p).acked))
  | _, _ => none

/-- WV_LAGMAX: the largest lag, and the core that first reached it. -/
def State.noteLag (s : State) (l lag : Nat) : State :=
  if s.fld Reg.WV_LAGMAX 0 2 < lag then (s.setFld Reg.WV_LAGMAX 0 2 lag).setFld Reg.WV_LAGMAX 8 6 l else s

/-- Shows the lag of logical core l in WV_LAG0 to WV_LAG3. -/
def State.setLag (s : State) (l lag : Nat) : State := s.setFld (Reg.WV_LAG (l / 16)) (2 * (l % 16)) 2 lag

/-- The lag of logical core l is judged at a pick boundary: lag 1 or 2 is counted as an overrun. A lag of 3 stays shown until
the failover completes. -/
def State.judgeLag (s : State) (l : Nat) : State :=
  match s.lagNow l with
  | none => if s.failingOver l then s else s.setLag l 0
  | some n =>
    let s1 := (s.setLag l n).noteLag l n
    if n = 1 ∨ n = 2 then (s1.satAdd Reg.WV_OVRUN 1).weaveIrq 7 else s1

/-- PICK_ACKNOWLEDGE: every woven command of the oldest unacknowledged pick of core p has completed. -/
def execPickAcknowledge (p : Fin 72) (s : State) : Out :=
  .next (if s.hasCore p.val ∧ (s.core p.val).acked ≤ s.pickNow then s.modCore p.val (fun c => { c with acked := c.acked + 1 }) else s)

/-- LAG_LIMIT_REACHED: the core of role l has three unacknowledged picks; it halts with PICK_MISS, whose address is the pick
offset of its last acknowledged pick, and is declared faulty (R372). stalled names the engines whose pass is aborted. -/
def execLagLimitReached (l : Fin 64) (stalled : BitVec 4) (s : State) : Out :=
  .next (match s.lagNow l.val, s.physOf l.val with
    | some 3, some p =>
      let last := (((s.core p).acked : Int) - 1 - (s.weave.tickPick : Int)) % (max 1 s.weave.tickLen : Nat)
      let s1 := (s.setLag l.val 3).noteLag l.val 3
      (s1.discardTiles p stalled.toNat).haltCore p haltPickMiss 0 last.toNat false
    | _, _ => s)

/-! ### The pick boundary -/

/-- Invalidations that have arrived take effect (R179). -/
def State.applyInval (s : State) (p : Nat) : State :=
  s.modCore p (fun c =>
    let d := c.inval.foldl (fun t i => match i with
      | none => []
      | some k => Tbl.erase k t) c.dcache
    let r := s.roleInval.foldl (fun t l => Tbl.erase l t) c.rcache
    { c with dcache := d, rcache := r, inval := [] })

/-- Invalidations take effect in every core and decode core; SYS_SDT_INVSTAT.busy ends. -/
def State.applyInvals (s : State) : State :=
  let s1 := (List.range (9 * s.clusters)).foldl (fun t p => t.applyInval p) s
  let d := s1.vdec.inval.foldl (fun t i => match i with
    | none => []
    | some k => t.filter (fun e => e.1 % 4096 != k)) s1.vdec.dcache
  ({ s1 with vdec := { s1.vdec with dcache := d, inval := [] }, roleInval := [] }).putBit Reg.SYS_SDT_INVSTAT 0 false

/-- A tick of its own ends for a core without a role: its context restarts (R232). -/
def State.ownTickEnd (s : State) (p : Nat) : State :=
  match s.roleOf p, (s.core p).ownTick with
  | none, some t =>
    if t + 1000000 ≤ s.pickNow then
      let s1 := s.modCore p (fun c => { c.restart with ownTick := some (t + 1000000) })
      if s1.coreState p = 1 ∨ s1.coreState p = 2 then s1.setCoreState p 1 0 else s1
    else s
  | _, _ => s

/-- A WAITPICK whose pick offset has begun ends its wait (R224). -/
def State.releaseWait (s : State) (p : Fin 72) : State :=
  let c := s.core p.val
  if s.coreState p.val = 2 ∧ s.fld (Reg.CORE_STATUS p.val) 4 3 = 1 ∧ c.waitN ≤ s.coreOffset p.val ∧
      s.bit (Reg.CORE_STATUS p.val) 3 = false ∧ c.syncAt = none ∧ c.held = none then
    s.openSection p c.waitN
  else s

/-- The watchdogs count a pick: the steward's always, the application cores' once it is enabled (R411). -/
def State.countWatchdogs (s : State) : State :=
  { s with rst := { s.rst with swCount := s.rst.swCount + 1, awCount := s.rst.awCount + (if s.bit Reg.RST_AWDT 16 then 1 else 0) } }

/-- PICK_BOUNDARY: the timebase reaches the next multiple of 1,000 ns. The endpoint looks at its vectors (R485). -/
def execPickBoundary (s : State) : Out :=
  .next (
    let s0 := s.setTime ((s.time / 1000 + 1) * 1000)
    let s1 := if s0.bit Reg.TBS_STATUS 0 then { s0 with stepRest := s0.stepRest - s0.stepRest.sign } else s0
    let s2 := s1.drainRings
    let s3 := (List.range (8 * s2.clusters)).foldl (fun t l => t.judgeLag l) s2
    let s4 := s3.applyInvals
    let s5 := (List.range (9 * s4.clusters)).foldl (fun t p => t.ownTickEnd p) s4
    let s6 := ((List.finRange 72).filter (fun p => decide (p.val < 9 * s5.clusters))).foldl (fun t p => t.releaseWait p) s5
    s6.dispatchJobs.countWatchdogs.watched (fun t => t))

/-! ### Carry-state shadow (R162) -/

/-- CARRY_SHADOW_COMPLETE: the last byte of the copy of role l is written, and the mark records the tick. -/
def execCarryShadowComplete (l : Fin 64) (s : State) : Out :=
  .next (if s.weave.shadowBusy.contains l.val then
    { s with weave := { s.weave with
        shadowBusy := s.weave.shadowBusy.filter (fun k => k != l.val),
        shadowMark := Tbl.set (fun _ => none) s.weave.shadowMark l.val (some s.tick) } }
  else s)

/-! ### The switch to the spare (R373, R376, R377) -/

/-- The tags of a spare that holds no data of the role: every block poisoned MISSING_INPUT but those that lie whole in the
restored carry ranges (R377). -/
def spareTags (ranges : List CarryRange) : Tbl Tag :=
  let clean := fun k => ranges.any (fun r => decide (r.offset ≤ 512 * k) && decide (512 * k + 512 ≤ r.offset + r.size))
  ((List.range (4096 + 64)).filter (fun k => decide (4096 ≤ k) || !clean k)).map (fun k => (k, Tag.ofCause .missing))

/-- Copies a role's shadow into the carry ranges of core p. -/
def State.restoreShadow (s : State) (p l : Nat) (ranges : List CarryRange) : State :=
  (ranges.foldl (fun (e : State × Nat) r =>
    (e.1.setBytes (coreBase p + r.offset) (e.1.bytes (shadowBase l + e.2) r.size), e.2 + r.size)) (s, 0)).1

/-- The carry regions of role l whose mark a failover clears: those opened since the shadow, or all without one (R376). -/
def State.dropRegions (s : State) (l : Nat) (sec : CoreSec) (shadow : Bool) : State :=
  sec.regions.foldl (fun t g =>
    if shadow && !t.weave.openedSince.contains (regionKey l g.region) then t else t.setCarry l g.region false 0) s

/-- The load of role l into core p: program, carry state, and what the spare does not hold. -/
def State.loadSpare (s : State) (p l : Nat) (sec : CoreSec) (shadow : Bool) : State :=
  let s1 := s.putNative p sec
  let s2 := if shadow then s1.restoreShadow p l sec.carry else s1
  let tags := spareTags (if shadow then sec.carry else [])
  let s3 := s2.modCore p (fun c => { c with tags := tags, landed := [], staleAt := [], queues := [] })
  let s4 := ((s3.clearStats p).clearMax p true true).sticky (Reg.CORE_MAXABS_STAT p) 11
  (s4.setFld (Reg.CORE_LSLOTS p) 0 16 (freeSlots sec.weft)).dropRegions l sec shadow

/-- FAILOVER_LOAD_COMPLETE: program, shadow and parameter sets are loaded into the spare. progError is an uncorrectable error
in the role-program ways, which aborts the failover (R380); shadowError one in the shadow, which counts as a missing shadow. -/
def execFailoverLoadComplete (g : Fin 8) (progError shadowError : Bool) (s : State) : Out :=
  .next (match s.failover g.val with
    | none => s
    | some f =>
      match s.physOf f.role, s.roleSec f.role with
      | some p, some sec =>
        if f.loaded.isSome ∨ s.bit (Reg.CORE_STATUS p) 7 = true ∨ s.coreState p ≠ 2 then s
        else if progError then s.abortFailover g.val
        else
          let s1 := s.loadSpare p f.role sec (f.shadow && !shadowError)
          s1.setFailover g.val (some { f with loaded := some s.pickNow })
      | _, _ => s)

/-- The loops that enclose weft index i, outermost first: index of the LOOP and of the loop's last instruction. -/
def enclosingLoops (weft : List Nat) (i : Nat) : List (Nat × Nat) :=
  (((weft.take i).zipIdx).filterMap (fun (w, j) => match decodeWeft (.woven 0) w with
    | some (.loop _ _ e) => if i ≤ e.toNat then some (j, e.toNat) else none
    | _ => none))

/-- A context at a re-entry point: its index, and its open loops with their counters (R60, R223, R373). -/
def Context.atReentry (c : Context) (weft : List Nat) (e : Reentry) : Context :=
  let open_ := ((enclosingLoops weft e.index).zip e.loops).filter (fun x => x.2 != 0)
  let put := fun (t : Tbl Nat) (k : (Nat × Nat) × Nat → Nat) => (open_.zipIdx).foldl (fun u (x, d) => Tbl.set (fun _ => 0) u d (k x)) t
  let lc := (open_.zipIdx).foldl (fun u (x, d) => Tbl.set (fun _ => 0) u d (BitVec.ofNat 32 x.2)) c.lc
  { c with
    pc := e.index, depth := open_.length, sp := 0, lc := lc,
    lstart := put c.lstart (fun x => x.1.1 + 1), lend := put c.lend (fun x => x.1.2), lframe := put c.lframe (fun _ => 0) }

/-- The re-entry point at which a role resumes: the first at least 2 picks after the load completed. -/
def State.reentryFor (s : State) (sec : CoreSec) (loaded : Nat) : Option Reentry :=
  sec.reentry.find? (fun e => decide (loaded + 2 ≤ s.weave.tickPick + e.pick))

/-- The role resumes on core p at a re-entry point. -/
def State.resumeRole (s : State) (p l : Nat) (sec : CoreSec) (e : Reentry) (f : Failover) : State :=
  let g := l / 8
  let pick := s.weave.tickPick + e.pick
  let s1 := s.modCore p (fun c =>
    { c with
      woven := c.woven.atReentry sec.weft e, lastWait := e.pick - 1, waitN := 0, held := none, syncAt := none, region := none,
      decided := [], regionPoison := [], acked := pick, landed := [], staleAt := [] })
  let s2 := ((s1.setFld (Reg.CORE_GANG p) 0 2 e.mode).applyGang p).setCoreState p 1 0
  let s3 := ((s2.setFailover g none).putBit (Reg.CLU_STATUS g) 5 false).putBit (Reg.CLU_STATUS g) 0 false
  let s4 := { s3 with weave := { s3.weave with
    serving := Tbl.set (fun _ => none) s3.weave.serving l none,
    hintLevel := Tbl.set (fun _ => 0) s3.weave.hintLevel l 0,
    hints := s3.weave.hints.filter (fun h => h.1 != l) } }
  (s4.kickRails.setLag l 0).logEvent 0x507 2 (srcCluster g) (l + min 0xFFF ((s4.time - f.start) / 1000) * 256) 0

/-- SPARE_RESUME: the role resumes on the spare when its re-entry point has been reached (R373 steps 5 and 6). -/
def execSpareResume (g : Fin 8) (s : State) : Out :=
  .next (match s.failover g.val with
    | none => s
    | some f =>
      match s.physOf f.role, s.roleSec f.role, f.loaded with
      | some p, some sec, some at_ =>
        match s.reentryFor sec at_ with
        | none => s
        | some e => if e.pick ≤ s.offset ∧ s.coreState p = 2 then s.resumeRole p f.role sec e f else s
      | _, _, _ => s)

end Sys2Proof.Machine
end

