-- ==== Sys2Proof/Machine/Frames.lean ====
section
/-! DEFINITION. Frame buffers, frame handles, change maps and scaled outputs, which decode cores and the ISP share
(11_video_ingest.md R302, R305 to R307; 12 R327, R329). -/

namespace Sys2Proof.Machine

/-! ### Frame-buffer pools (R307) -/

/-- A pool of the running image. -/
def State.poolConf (s : State) (pool : Nat) : Option PoolConf := s.weave.active.bind (fun im => im.pools.find? (fun p => p.id == pool))

/-- Address of buffer i of a pool. -/
def State.bufAddr (s : State) (pool i : Nat) : Nat :=
  match s.poolConf pool with
  | some p => p.base + i * p.size
  | none => 0

/-- Draws a buffer for a stream: any free buffer of the pool (the specification does not say which); none where the pool is
empty. -/
def State.drawBuf (s : State) (pool stream : Nat) : Option Nat × State :=
  match s.poolConf pool with
  | none => (none, s)
  | some p =>
    let l := (List.range p.count).filter (fun i => !s.vdec.bufs.any (fun b => b.pool == pool && b.index == i))
    if l.isEmpty then (none, s)
    else
      let r := s.free 32
      let i := l.getD (r.1 % l.length) 0
      let b : PoolBuf := { pool := pool, index := i, stream := stream, prev := false, ref := false, held := true, ticks := 0 }
      (some i, { r.2 with vdec := { r.2.vdec with bufs := r.2.vdec.bufs ++ [b] } })

/-- Changes buffer i of a pool. -/
def State.modBuf (s : State) (pool i : Nat) (f : PoolBuf → PoolBuf) : State :=
  { s with vdec := { s.vdec with bufs := s.vdec.bufs.map (fun b => if b.pool = pool ∧ b.index = i then f b else b) } }

/-- No slot, pass or stamped frame holds buffer i any longer. -/
def State.releaseBuf (s : State) (pool i : Nat) : State := s.modBuf pool i (fun b => { b with held := false })

/-- Buffer i of a pool holds the previous output of a stream; the stream's earlier one does not. -/
def State.setPrevBuf (s : State) (stream pool i : Nat) : State :=
  { s with vdec := { s.vdec with bufs := s.vdec.bufs.map (fun b =>
      if b.pool = pool ∧ b.index = i then { b with prev := true } else if b.stream = stream then { b with prev := false } else b) } }

/-! ### Frame handles (R306, R329) -/

/-- The 128 bytes of a frame handle. -/
def handleBytes (stamp capture tick outcome flags reason : Nat) (o : FrameOut) : List Nat :=
  let outs := (o.outs ++ [0, 0, 0]).take 3
  let b := leBytes 8 stamp ++ leBytes 8 capture ++ leBytes 4 tick ++ [outcome, flags] ++ leBytes 2 reason ++ leBytes 2 o.w ++ leBytes 2 o.h ++
    leBytes 2 o.pool ++ leBytes 2 o.index ++ leBytes 8 o.luma ++ leBytes 8 o.chroma ++ leBytes 8 o.map ++ outs.flatMap (leBytes 8) ++
    leBytes 2 o.stride ++ [0, 0] ++ leBytes 8 o.stat ++ List.replicate 32 0
  b ++ leBytes 4 (crc32c b)

/-- Writes the handle of a stream. -/
def State.putHandle (s : State) (n : Nat) (bs : List Nat) : State :=
  let s1 := { s with vdec := { s.vdec with handles := Tbl.set (fun _ => []) s.vdec.handles n bs } }
  match s.handleAddr n with
  | some a => s1.agentWrite a bs
  | none => s1

/-- The handle of a slot that found no frame: outcome 0, every other field as in the previous handle but the tick (R55, R306). -/
def State.noneHandle (s : State) (n : Nat) : State :=
  let old := (Tbl.get (fun _ => []) s.vdec.handles n ++ List.replicate 128 0).take 124
  let b := old.take 16 ++ leBytes 4 s.tick ++ [0] ++ old.drop 21
  s.putHandle n (b ++ leBytes 4 (crc32c b))

/-- The fields of a hole's handle that the specification does not state. -/
def State.freeOut (s : State) : FrameOut × State :=
  let a := s.free 16
  let b := a.2.free 16
  let c := b.2.free 16
  let d := c.2.free 16
  let e := d.2.free 64
  let f := e.2.free 64
  let g := f.2.free 64
  let h := g.2.free 16
  (⟨0, a.1, b.1, c.1, d.1, e.1, f.1, g.1, [], h.1, 0⟩, h.2)

/-- The LATE rule of R72 for a frame decoded in the current tick: captured before the start of the tick before it. -/
def State.isLate (s : State) (capture : Nat) : Bool := decide (capture < 1000 * (s.weave.tickPick - s.weave.tickLen))

/-- Records an opening of a stream (R520). -/
def State.pushOpening (s : State) (n : Nat) (o : Opening) : State := s.setOpenings n (o :: s.openingsOf n)

/-- Changes what the retirement unit knows of a frame that an opening of the stream chose. -/
def State.modFrame (s : State) (n frame : Nat) (f : FrameSt → FrameSt) : State :=
  s.setOpenings n ((s.openingsOf n).map (fun o => { o with chosen := o.chosen.map (fun c => if c.frame = frame then f c else c) }))

/-- Record flag LATE of a capture time. -/
def State.lateFlag (s : State) (capture : Nat) : Nat := if s.isLate capture then 4 else 0

/-- A frame is a hole: its first retirement slot retires it with a reason, and its handle has outcome 3 (R302, R323). -/
def State.holeFrame (s : State) (n : Nat) (f : Stamped) (reason irap : Nat) : State :=
  let r := (s.modFrame n f.frame (fun c => { c with hole := some reason, flags := s.lateFlag f.capture })).freeOut
  let fl := irap + (if s.isLate f.capture then 2 else 0)
  r.2.putHandle n (handleBytes (stampOf n f.frame 0) f.capture s.tick 3 fl reason r.1)

/-! ### Change maps (R305) -/

/-- Blocks of 16 in n samples. -/
def blocks16 (n : Nat) : Nat := (n + 15) / 16

/-- Bytes per row of the change map of a picture of width w. -/
def mapStride (w : Nat) : Nat := (blocks16 w + 63) / 64 * 8

/-- The bytes of a change map whose bit of block (x, y) is f x y. -/
def mapBytes (w h : Nat) (f : Nat → Nat → Bool) : List Nat :=
  (List.range (blocks16 h)).flatMap (fun y => (List.range (mapStride w)).map (fun j =>
    (List.range 8).foldl (fun b i => if decide (8 * j + i < blocks16 w) && f (8 * j + i) y then b + 2 ^ i else b) 0))

/-! ### Outputs (R306) -/

/-- A DECOUT entry (Table, DECOUT entry). -/
structure DecOut where
  offset : Nat
  fmt : Nat
  x0 : Nat
  y0 : Nat
  x1 : Nat
  y1 : Nat
  pw : Nat
  ph : Nat
  qw : Nat
  qh : Nat
  padY : Nat
  padB : Nat
  padR : Nat
  deriving DecidableEq, Repr

/-- The fields of a DECOUT entry's bytes. -/
def DecOut.ofBytes (b : List Nat) : DecOut :=
  { offset := sub b 0 4, fmt := sub b 6 1, x0 := sub b 8 2, y0 := sub b 10 2, x1 := sub b 12 2, y1 := sub b 14 2, pw := sub b 16 2, ph := sub b 18 2, qw := sub b 20 2, qh := sub b 22 2, padY := sub b 24 1, padB := sub b 25 1, padR := sub b 26 1 }

/-- Every field of an entry is in its range for a source of w by h luma pixels. -/
def DecOut.ok (o : DecOut) (w h : Nat) : Bool :=
  decide (o.fmt ≤ 1) && decide (o.x0 < o.x1 ∧ o.x1 ≤ w) && decide (o.y0 < o.y1 ∧ o.y1 ≤ h) && o.pw % 2 == 0 && o.ph % 2 == 0 &&
    decide (16 ≤ o.pw ∧ o.pw ≤ 4096) && decide (16 ≤ o.ph ∧ o.ph ≤ 4096) && decide (o.pw ≤ o.qw) && decide (o.ph ≤ o.qh)

/-- Bytes of the luma plane of an output. -/
def DecOut.lumaBytes (o : DecOut) (w h : Nat) (y : Nat → Nat → Nat) : List Nat :=
  (List.range o.qh).flatMap (fun j => (List.range o.qw).map (fun i =>
    if i < o.pw ∧ j < o.ph then (taps4 w h (lumaPos i o.x0 o.x1 o.pw) (lumaPos j o.y0 o.y1 o.ph)).blend y else o.padY))

/-- Bytes of the interleaved chroma plane of an output. -/
def DecOut.chromaBytes (o : DecOut) (w h : Nat) (cb cr : Nat → Nat → Nat) : List Nat :=
  (List.range (o.qh / 2)).flatMap (fun j => (List.range (o.qw / 2)).flatMap (fun i =>
    if i < o.pw / 2 ∧ j < o.ph / 2 then
      let t := taps4 (w / 2) (h / 2) (chromaPos i o.x0 o.x1 o.pw) (chromaPos j o.y0 o.y1 o.ph)
      [t.blend cb, t.blend cr]
    else [o.padB, o.padR]))

/-- The bytes of an output: luma plane, then for NV12 the chroma plane. -/
def DecOut.bytes (o : DecOut) (w h : Nat) (y cb cr : Nat → Nat → Nat) : List Nat :=
  o.lumaBytes w h y ++ (if o.fmt = 0 then o.chromaBytes w h cb cr else [])

/-- Fetches entry idx of the stream descriptor table for decode core k (17: the ISP) through its cache (R178); empty where it
cannot be read. -/
def State.fetchOut (s : State) (k idx : Nat) : List Nat × State :=
  let key := 4096 * k + idx
  match Tbl.get (fun _ => none) s.vdec.dcache key with
  | some b => (b, s)
  | none =>
    let a := s.reg64 Reg.SYS_SDT_BASE_LO % 2 ^ 40 + 64 * idx
    let b := if s.readableMem a 64 && !s.badRange a 64 then s.bytes a 64 else []
    (b, { s with vdec := { s.vdec with dcache := Tbl.set (fun _ => none) s.vdec.dcache key (some b) } })

/-- The bytes of an entry are a valid DECOUT entry for a source of w by h. -/
def outOk (b : List Nat) (w h : Nat) : Bool :=
  b.length == 64 && descCrcOk b && sub b 5 1 == 8 && (DecOut.ofBytes b).ok w h

/-- Writes one output into a buffer at base; false where its entry is bad. -/
def State.putOut (s : State) (k idx base w h : Nat) (y cb cr : Nat → Nat → Nat) : Bool × State :=
  let r := s.fetchOut k idx
  if outOk r.1 w h then
    let o := DecOut.ofBytes r.1
    (true, r.2.agentWrite (base + o.offset) (o.bytes w h y cb cr))
  else (false, r.2)

/-- Writes the outputs that an output set selects: their addresses, 0 where absent, and whether every entry was good. -/
def State.putOuts (s : State) (k base w h : Nat) (y cb cr : Nat → Nat → Nat) : List (Option Nat) → List Nat × Bool × State
  | [] => ([], true, s)
  | none :: r =>
    let t := s.putOuts k base w h y cb cr r
    (0 :: t.1, t.2.1, t.2.2)
  | some idx :: r =>
    let u := s.putOut k idx base w h y cb cr
    let o := DecOut.ofBytes (s.fetchOut k idx).1
    let t := u.2.putOuts k base w h y cb cr r
    ((base + o.offset) :: t.1, u.1 && t.2.1, t.2.2)

/-- The descriptor indices of an output set of the running variant; unused ones are absent. -/
def State.outSet (s : State) (id : Nat) : List (Option Nat) :=
  match s.variant.bind (fun v => v.sets.find? (fun e => e.id == id)) with
  | some e => e.index.map (fun i => if i = 0xFFFF then none else some i)
  | none => []

/-- The binding of a stream in the running variant. -/
def State.binding (s : State) (n : Nat) : Option Binding := s.variant.bind (fun v => v.binds.find? (fun b => b.stream == n))

/-- Openings of a stream in a tick of a variant. -/
def Variant.rate (v : Variant) (n : Nat) : Nat :=
  (v.dec.filter (fun d => d.stream == n)).length + (v.isp.filter (fun d => 0x400 + d.port == n)).length

/-- The running variant runs a stream at a lower rate than the image's variant without lost units (R62). -/
def State.slowStream (s : State) (n : Nat) : Bool :=
  match s.variant, s.weave.active.bind (fun im => im.variants.find? (fun v => v.reduced == 0 && v.lost == 0 && v.dies == 0)) with
  | some v, some u => decide (v.rate n < u.rate n)
  | _, _ => false

end Sys2Proof.Machine
end

