-- ==== Sys2Proof/Machine/Decoder.lean ====
section
/-! DEFINITION. Decode cores (11_video_ingest.md R301 to R309): slots, verdicts, change maps, outputs, handles and the spare. -/

namespace Sys2Proof.Machine

/-! ### Decode cores and the spare (R308) -/

/-- The physical decode core that runs a slot of logical core k now; none while it is faulty and nothing serves it. -/
def State.physDec (s : State) (k : Nat) : Option Nat :=
  if s.bit Reg.VDEC_FAULT k = false then some k
  else if s.fld Reg.VDEC_SPARE 0 5 = k ∧ s.bit Reg.VDEC_FAULT 16 = false ∧ s.vdec.spareFrom ≤ s.time then some 16
  else none

/-- Physical decode core p is declared faulty; the spare takes its logical core when it is available. -/
def State.decoderFaulty (s : State) (p : Nat) : State :=
  if s.bit Reg.VDEC_FAULT p then s
  else
    let took := decide (p < 16) && s.bit Reg.VDEC_SPARE 5
    let s1 := (s.sticky Reg.VDEC_FAULT p).sticky Reg.VDEC_IRQ_STATUS 1
    let s2 := if took then
        let t := (s1.setFld Reg.VDEC_SPARE 0 5 p).putBit Reg.VDEC_SPARE 5 false
        { t with vdec := { t.vdec with spareFrom := t.time + 50000, took := [] } }
      else if p = 16 then s1.putBit Reg.VDEC_SPARE 5 false else s1
    s2.logEvent 0x50C 2 0x20 (p + (if took then 256 else 0)) 0

/-- refs_lost of a stream becomes 1: its bit in VDEC_REFRESH and the interrupt are set (R302). -/
def State.loseRefs (s : State) (n : Nat) : State :=
  if Tbl.get (fun _ => false) s.vdec.refsLost n then s
  else
    let s1 := { s with vdec := { s.vdec with refsLost := Tbl.set (fun _ => false) s.vdec.refsLost n true } }
    (s1.sticky (Reg.VDEC_REFRESH (n / 32)) (n % 32)).sticky Reg.VDEC_IRQ_STATUS 0

/-- The spare serves a stream: the first time, its references are lost (R308). -/
def State.spareTakes (s : State) (p n : Nat) : State :=
  if p = 16 ∧ s.vdec.took.contains n = false then
    ({ s with vdec := { s.vdec with took := n :: s.vdec.took } }).loseRefs n
  else s

/-! ### Verdicts (R302) -/

/-- The index flags of an access unit. -/
def Stamped.whole (f : Stamped) : Bool := nbit f.flags 0
def Stamped.irap (f : Stamped) : Bool := nbit f.flags 1
def Stamped.isRef (f : Stamped) : Bool := nbit f.flags 2

/-- Handle flag irap. -/
def Stamped.irapFlag (f : Stamped) : Nat := if f.irap then 1 else 0

/-- A decode slot ends with a hole verdict. -/
def State.endHole (s : State) (n : Nat) (f : Stamped) (used : List Nat) (reason : Nat) : State :=
  let bad := reason = holeDecodeError ∨ reason = holeDecoderFault
  (((if bad then s.satAdd Reg.VDEC_ERRORS 1 else s).holeFrame n f reason f.irapFlag)).endKept n used

/-- A decode slot ends with verdict repeated, or with a hole where the stream has no previous output: the previous output, its
capture time, and a change map all clear. -/
def State.endRepeat (s : State) (n : Nat) (f : Stamped) (used : List Nat) : State :=
  match Tbl.get (fun _ => none) s.vdec.prevOut n with
  | none => s.endHole n f used holeDecodeError
  | some o =>
    let s1 := (s.satAdd Reg.VDEC_REPEATED 1).modFrame n f.frame (fun c => { c with capture := o.capture, flags := 2 + s.lateFlag o.capture })
    let s2 := s1.agentWrite o.map (mapBytes o.w o.h (fun _ _ => false))
    let fl := f.irapFlag + (if s.isLate o.capture then 2 else 0)
    (s2.putHandle n (handleBytes (stampOf n f.frame 0) o.capture s.tick 2 fl 0 o)).endKept n used

/-- A stream's unsupported state when an access unit is decoded (R309). -/
def State.judgeSupport (s : State) (n : Nat) (f : Stamped) (unsupported : Bool) : State :=
  let u := unsupported || (Tbl.get (fun _ => false) s.vdec.unsupported n && !f.irap)
  let s1 := { s with vdec := { s.vdec with unsupported := Tbl.set (fun _ => false) s.vdec.unsupported n u } }
  s1.stickyIf u Reg.VDEC_IRQ_STATUS 2

/-- The chosen access unit takes the first verdict that holds when the slot opens, or begins to decode. -/
def State.beginDecode (s : State) (d : DecSlot) (p : Nat) (f : Stamped) (used : List Nat) (unsupported absent : Bool) : State :=
  let n := d.stream
  let s1 := (s.spareTakes p n).judgeSupport n f unsupported
  let s2 := { s1 with vdec := { s1.vdec with cuts := Tbl.set (fun _ => 0) s1.vdec.cuts p 0 } }
  if f.whole = false then s2.endHole n f used holePacketLoss
  else if Tbl.get (fun _ => false) s2.vdec.unsupported n then s2.endHole n f used holeDecodeError
  else if f.irap = false ∧ (Tbl.get (fun _ => false) s2.vdec.refsLost n = true ∨ absent = true) then s2.endRepeat n f used
  else
    let r := s2.drawBuf d.pool n
    match r.1 with
    | none => ((r.2.satAdd Reg.VDEC_POOLEMPTY 1).loseRefs n).endHole n f used holeNoBuffer
    | some i =>
      let run : DecRun := { stream := n, au := f, used := used, pool := d.pool, index := i, outputs := d.outputs, flags := d.flags, core := p, last := s.weave.tickPick + d.pick + d.deadline }
      -- the count of cut-off slots stands until this slot ends
      { r.2 with vdec := { r.2.vdec with runs := Tbl.set (fun _ => none) r.2.vdec.runs d.decoder (some run), cuts := s.vdec.cuts } }

/-- A decode slot opens (R301). -/
def State.openDecode (s : State) (d : DecSlot) (unsupported absent : Bool) : State :=
  let n := d.stream
  let pend := Tbl.get (fun _ => []) s.ingest.pend n
  match pend with
  | [] => (s.pushOpening n ⟨none, []⟩).noneHandle n
  | first :: _ =>
    let hAllow := match s.binding n with | some b => b.hAllow | none => 0
    let k := min (max (pend.length - s.entry n 10 8) 1) (hAllow + 1)
    let f := pend.getD (k - 1) first
    let passed := pend.take (k - 1)
    let phys := s.physDec d.decoder
    let slow := s.slowStream n
    let why := fun (a : Stamped) =>
      if phys.isNone then holeDecoderFault else if a.whole = false then holePacketLoss else if slow then holeReducedRate else holeSuperseded
    let o : Opening := ⟨some ⟨f.frame, f.capture, s.lateFlag f.capture, none, 0, false⟩, passed.map (fun a => (a.frame, a.capture, why a))⟩
    let s1 := { s with ingest := { s.ingest with pend := Tbl.set (fun _ => []) s.ingest.pend n (pend.drop k) } }
    let s2 := s1.pushOpening n o
    let s3 := if passed.any Stamped.isRef then s2.loseRefs n else s2
    let used := (pend.take k).map (fun a => a.frame)
    match phys with
    | none => (s3.satAdd Reg.VDEC_ERRORS (k - 1)).endHole n f used holeDecoderFault
    | some p => s3.beginDecode d p f used unsupported absent

/-- DECODE_SLOT_OPEN: entry i of the running variant's decode timetable opens. unsupported: the active parameter sets declare
something that R309 lists. absent: a reference that the access unit names is absent. -/
def execDecodeSlotOpen (i : BitVec 16) (unsupported absent : Bool) (s : State) : Out :=
  .next (match s.variant.bind (fun v => v.dec[i.toNat]?) with
    | none => s
    | some d =>
      if s.ticking = false ∨ s.vdec.opened.contains i.toNat = true ∨ s.offset < d.pick ∨
        (Tbl.get (fun _ => none) s.vdec.runs d.decoder).isSome then s
      else ({ s with vdec := { s.vdec with opened := i.toNat :: s.vdec.opened } }).openDecode d unsupported absent)

/-! ### The end of decoding (R303, R305, R306) -/

/-- The bit of a block in the change map (R305). -/
def blockChanged (b : BlockInfo) (tCoef tMv : Nat) : Bool :=
  b.intra || decide (tCoef ≤ b.level.toNat) || decide (tMv ≤ b.motion.toNat) || b.far

/-- The buffers of a stream after a decode: those in its reference set. -/
def State.setRefs (s : State) (n pool : Nat) (refs : List Nat) : State :=
  { s with vdec := { s.vdec with bufs := s.vdec.bufs.map (fun b =>
      if b.stream = n ∧ b.pool = pool then { b with ref := refs.contains b.index } else b) } }

/-- Decoding ends with a picture. -/
def State.endDecoded (s : State) (r : DecRun) (p : Picture) : State :=
  let n := r.stream
  let f := r.au
  let w := p.w.toNat
  let h := p.h.toNat
  let base := s.bufAddr r.pool r.index
  let luma := (p.luma.map (fun b => b.toNat)).take (w * h)
  let chroma := (p.chroma.map (fun b => b.toNat)).take (w * h / 2)
  let mapOff := match s.binding n with | some b => b.mapOff | none => 0
  let all := f.irap || !Tbl.get (fun _ => false) s.vdec.seen n || !nbit r.flags 0
  let tc := s.entry n 26 8
  let tm := s.entry n 27 8
  let bit := fun x y => all || match p.blocks[y * blocks16 w + x]? with | some b => blockChanged b tc tm | none => false
  let s1 := ((s.agentWrite base luma).agentWrite (base + w * h) chroma).agentWrite (base + mapOff) (mapBytes w h bit)
  let set := (s.outSet r.outputs).take 3
  let sel := set.mapIdx (fun i e => if nbit r.flags (i + 1) then e else none)
  let cAt := fun (c x y : Nat) => chroma.getD (2 * (y * (w / 2) + x) + c) 0
  let o := s1.putOuts r.core base w h (fun x y => luma.getD (y * w + x) 0) (cAt 0) (cAt 1) sel
  let s2 := (o.2.2.releaseBuf r.pool r.index).setRefs n r.pool (p.refs.map (fun b => b.toNat))
  if o.2.1 = false then s2.endHole n f r.used holeDecodeError
  else
    let out : FrameOut := ⟨f.capture, w, h, r.pool, r.index, base, base + w * h, base + mapOff, o.1, mapStride w, 0⟩
    let lost := Tbl.get (fun _ => false) s2.vdec.refsLost n && !f.irap
    let s3 := { s2 with vdec := { s2.vdec with
      prevOut := Tbl.set (fun _ => none) s2.vdec.prevOut n (some out),
      seen := Tbl.set (fun _ => false) s2.vdec.seen n true,
      refsLost := Tbl.set (fun _ => false) s2.vdec.refsLost n lost } }
    let fl := f.irapFlag + (if s.isLate f.capture then 2 else 0) + (if all then 4 else 0)
    let s4 := (s3.setPrevBuf n r.pool r.index).satAdd Reg.VDEC_DECODED 1
    (s4.putHandle n (handleBytes (stampOf n f.frame 0) f.capture s.tick 1 fl 0 out)).endKept n r.used

/-- A decode ends without a picture: verdict 5 (R302). -/
def State.endFailed (s : State) (r : DecRun) : State :=
  ((s.releaseBuf r.pool r.index).loseRefs r.stream).endRepeat r.stream r.au r.used

/-- Takes the running decode of logical core k out. -/
def State.dropRun (s : State) (k : Nat) : State :=
  { s with vdec := { s.vdec with runs := Tbl.set (fun _ => none) s.vdec.runs k none } }

/-- The count of consecutive cut-off slots of physical core p. -/
def State.setCuts (s : State) (p n : Nat) : State := { s with vdec := { s.vdec with cuts := Tbl.set (fun _ => 0) s.vdec.cuts p n } }

/-- DECODE_COMPLETE: decoding on logical core k ends. What the bitstream decodes to is the operand: the standards of the codecs
are no part of this specification. -/
def execDecodeComplete (k : Fin 16) (r : DecodeResult) (s : State) : Out :=
  .next (match Tbl.get (fun _ => none) s.vdec.runs k.val with
    | none => s
    | some run =>
      let s1 := (s.dropRun k.val).setCuts run.core 0
      match r with
      | .error => s1.endFailed run
      | .fault => (s1.decoderFaulty run.core |>.releaseBuf run.pool run.index).endHole run.stream run.au run.used holeDecoderFault
      | .picture p => s1.endDecoded run p)

/-- DECODE_DEADLINE: the slot on logical core k reaches its deadline and is cut off (R303, R308). -/
def execDecodeDeadline (k : Fin 16) (s : State) : Out :=
  .next (match Tbl.get (fun _ => none) s.vdec.runs k.val with
    | none => s
    | some run =>
      if s.pickNow < run.last then s
      else
        let n := Tbl.get (fun _ => 0) s.vdec.cuts run.core + 1
        let s1 := ((s.dropRun k.val).setCuts run.core n).satAdd Reg.VDEC_OVRUN 1
        let s2 := (s1.sticky Reg.VDEC_IRQ_STATUS 3).endFailed run
        if 3 ≤ n then s2.decoderFaulty run.core else s2)

end Sys2Proof.Machine
end

