-- ==== Sys2Proof/Machine/Power.lean ====
section
/-! DEFINITION. Power capping, set points, droop, thermal control, PMBus and wakes (15_power_and_thermal.md R388 to R410). -/

namespace Sys2Proof.Machine

/-! ### Phase hints (R397) -/

/-- PHASE.HINT: requests hint level l for the issuing logical core from pick q + n; lead 0 selects 64. A raise of the die's voltage
begins at once. -/
def execPhaseHint (x : Ctx) (level : BitVec 2) (lead : BitVec 11) (s : State) : Out :=
  issue x 0 0x08 (level.toNat != 3) s (fun s =>
    match x with
    | .loose _ _ => s.weftFault x haltSeFormat 0 0
    | .woven p => match s.roleOf p.val with
      | none => s.advance x
      | some l =>
        let n := if lead.toNat = 0 then 64 else lead.toNat
        ({ s with weave := { s.weave with hints := s.weave.hints ++ [(l, level.toNat, s.pickNow + n)] } }).kickRails.advance x)

/-- HINT_TAKES_EFFECT: the oldest hint whose lead has elapsed changes its core's level. -/
def execHintTakesEffect (s : State) : Out :=
  .next (match s.weave.hints.find? (fun h => decide (h.2.2 ≤ s.pickNow)) with
    | none => s
    | some h =>
      ({ s with weave := { s.weave with hints := s.weave.hints.erase h, hintLevel := Tbl.set (fun _ => 0) s.weave.hintLevel h.1 h.2.1 } }).kickRails)

/-! ### Temperatures (R400) -/

/-- Temperature of a sensor in 1/8 °C, none while it is not valid. -/
def State.sensor (s : State) (n : Nat) : Option Int :=
  let v := s.regN (Reg.PWR_TEMP n)
  if v.testBit 12 then some (if v % 4096 < 2048 then ((v % 4096 : Nat) : Int) else ((v % 4096 : Nat) : Int) - 4096) else none

/-- Throttle point in 1/8 °C. -/
def State.throt (s : State) : Int := 8 * ((s.fld Reg.PWR_THERM 0 8 : Nat) : Int)

/-- The hottest of the valid sensors given; the throttle point when none is valid. -/
def State.hottest (s : State) (ns : List Nat) : Int :=
  match ns.filterMap s.sensor with
  | [] => s.throt
  | t :: ts => ts.foldl max t

/-- Sensors of cluster g, and of the I/O die. -/
def clusterSensors (g : Nat) : List Nat := [3 * g, 3 * g + 1, 3 * g + 2]
def ioSensors : List Nat := [24, 25, 26, 27, 28, 29]

/-- Temperature of cluster g, of die d, of the I/O die, of the package. -/
def State.clusterTemp (s : State) (g : Nat) : Int := s.hottest (clusterSensors g)
def State.dieTemp (s : State) (d : Nat) : Int := (List.range 4).foldl (fun m c => max m (s.clusterTemp (4 * d + c))) (s.clusterTemp (4 * d))
def State.ioTemp (s : State) : Int := s.hottest ioSensors
def State.packageTemp (s : State) : Int := (List.range s.dies).foldl (fun m d => max m (s.dieTemp d)) s.ioTemp

/-- A sensor of cluster g has converted since the reset. -/
def State.converted (s : State) (g : Nat) : Bool :=
  (clusterSensors g).any (fun n => (s.sensor n).isSome || s.power.badSensors.contains n)

/-! ### Limits (R393, R404) -/

/-- CORE_LLIMIT of every core takes the package loose limit, capped at 1 in a cluster under throttle or gradient alarm. -/
def State.applyLimits (s : State) : State :=
  let k := s.fld Reg.PWR_LOOSEK 0 5
  (List.range (9 * s.clusters)).foldl (fun t p =>
    let th := s.regN (Reg.CLU_THERMST (p / 9))
    t.setRegN (Reg.CORE_LLIMIT p) (if th.testBit 0 || th.testBit 1 then min k 1 else k)) s

/-- A thermal emergency begins or lapses (R404). -/
def State.judgeEmergency (s : State) : State :=
  let floor := (List.range s.dies).all (fun d => (s.rail d).faulty || s.dieStep d == 0)
  let slow := (List.range (9 * s.clusters)).all (fun p => s.fld (Reg.CORE_LLIMIT p) 0 5 == 1)
  let temps := (List.range 30).filterMap s.sensor
  let limit : Int := 8 * ((s.fld Reg.PWR_THERM 8 8 : Nat) : Int)
  if floor && slow && temps.any (fun t => decide (limit ≤ t)) then
    match s.power.emergency with
    | some _ => s
    | none =>
      let s1 := { s with power := { s.power with emergency := some s.time } }
      ((s1.putBit Reg.PWR_STATUS 3 true).sticky Reg.PWR_IRQ_STATUS 4).logEvent 0x525 2 0x03 (256 * (temps.foldl max limit / 8).toNat) 0
  else ({ s with power := { s.power with emergency := none } }).putBit Reg.PWR_STATUS 3 false

/-! ### The estimator (R390 to R393) -/

/-- leak of R391: mW of leakage table t at a temperature and voltage, for a reference voltage. -/
def State.leak (s : State) (t : Nat) (temp : Int) (v ref : Nat) : Nat :=
  let x := (max 0 (min 1119 (temp + 160))).toNat
  let i := x / 80
  let f := x % 80
  let e := fun (j : Nat) => s.fld (Reg.PWR_LEAK (15 * t + j)) 0 16
  let l := e i * (80 - f) + e (i + 1) * f
  (rheDiv ((l * v ^ 3 : Nat) : Int) (80 * ref ^ 3)).toNat

/-- Energy of the counts of events first, first + 1, … in 1/16 pJ. -/
def State.energy (s : State) (first : Nat) (cnt : List (BitVec 32)) : Nat :=
  (cnt.mapIdx (fun n (c : BitVec 32) => s.fld (Reg.PWR_COEF (first + n)) 0 16 * c.toNat)).sum

/-- Share of die d: its dynamic power scaled by the square of its set voltage, and its leakage. -/
def State.diePower (s : State) (d : Nat) (cnt : List (BitVec 32)) : Nat :=
  let v := s.vset d
  (rheDiv ((s.energy 0 (cnt.take 11) * v * v : Nat) : Int) (32000 * 720 * 720)).toNat + s.leak d (s.dieTemp d) v 720

/-- Share of the I/O die. -/
def State.ioPower (s : State) (cnt : List (BitVec 32)) : Nat :=
  (rheDiv ((s.energy 11 (cnt.take 4) : Nat) : Int) 32000).toNat + s.fld (Reg.PWR_COEF 15) 0 16 + s.leak 2 s.ioTemp 750 750

/-- One step of an average with 8 fraction bits (R392). -/
def average (a p sh : Nat) : Nat := (((a : Nat) : Int) + (((p * 256 : Nat) : Int) - ((a : Nat) : Int)) / ((2 ^ sh : Nat) : Int)).toNat

/-- The package loose limit after an estimate p under profile w, from the limit k that last changed at since (R393). -/
def nextLimit (p af as w k since now : Nat) : Nat :=
  if 1500 * w < p then 1
  else if 1250 * w * 256 < af ∨ 1000 * w * 256 < as then max (k - 2) 1
  else if af * 16 < 1250 * w * 256 * 15 ∧ as + 256000 < 1000 * w * 256 ∧ since + 16000 ≤ now then min (k + 1) 16
  else k

/-- Above the profile at the floor (R390): the episode, its milliseconds, and its event. -/
def State.judgeOver (s : State) : State :=
  let pl1 := 1000 * s.power.profile
  let above : Bool := (List.range s.dies).all (fun d => s.dieStep d == 0) && s.fld Reg.PWR_LOOSEK 0 5 == 1 && decide (pl1 * 256 < s.power.avgS)
  if above then
    match s.power.overSince with
    | none =>
      let s1 := { s with power := { s.power with overSince := some s.time, overMs := 0 } }
      ((s1.putBit Reg.PWR_STATUS 2 true).sticky Reg.PWR_IRQ_STATUS 3).logEvent 0x524 2 0x03 (min 0xFFFF (s.power.avgS / 256 - pl1)) 0
    | some t =>
      let ms := (s.time - t) / 1000000
      ({ s with power := { s.power with overMs := max ms s.power.overMs } }).satAdd Reg.PWR_OVERFLOOR (ms - s.power.overMs)
  else ({ s with power := { s.power with overSince := none, overMs := 0 } }).putBit Reg.PWR_STATUS 2 false

/-- ESTIMATOR_PERIOD: the estimate of the last 2 µs from its counts, the averages, the loose limit. A profile written in the period is
in force from the next one on (R388, R409). -/
def execEstimatorPeriod (c : PowerCounts) (s : State) : Out :=
  .next (
    let p0 := s.diePower 0 c.die0
    let p1 := if s.dies = 2 then s.diePower 1 c.die1 else 0
    let pio := s.ioPower c.io
    let p := p0 + p1 + pio
    let af := average s.power.avgF p 6
    let as := average s.power.avgS p 13
    let s1 := ((((((s.setFld Reg.PWR_EST 0 24 p).setFld Reg.PWR_ESTD0 0 24 p0).setFld Reg.PWR_ESTD1 0 24 p1).setFld Reg.PWR_ESTIO 0 24
      pio).setFld Reg.PWR_AVGF 0 24 (af / 256)).setFld Reg.PWR_AVGS 0 24 (as / 256))
    let k := s.fld Reg.PWR_LOOSEK 0 5
    let k' := nextLimit p af as s.power.profile k s.power.kSince s.time
    let since := if k' = k then s.power.kSince else s.time
    let s2 := ({ s1 with power := { s1.power with avgF := af, avgS := as, kSince := since } }).setFld Reg.PWR_LOOSEK 0 5 k'
    let s3 := s2.applyLimits.judgeOver.judgeEmergency
    { s3 with power := { s3.power with profile := s.fld Reg.PWR_PROFILE 0 8 } })

/-! ### The profile (R388) -/

/-- Profiles of the loaded images while the weave holds one. -/
def State.imageProfiles (s : State) : List Nat :=
  let w := s.weaveState
  if w = 2 ∨ w = 3 ∨ w = 4 ∨ w = 5 then
    (match s.weave.active with | some im => [im.profile] | none => []) ++ (match s.weave.standby with | some im => [im.profile] | none => [])
  else []

/-- A write of PWR_PROFILE by a master. -/
def State.profileWrite (s : State) (v master : Nat) : State :=
  let w := v % 256
  if s.bit Reg.PWR_LOCK 0 then s.lockViolation Reg.PWR_PROFILE master
  else if (w ≠ 45 ∧ w ≠ 60 ∧ w ≠ 90) ∨ s.imageProfiles.any (fun q => decide (w < q)) = true then s.sticky Reg.PWR_STATUS 4
  else if w = s.fld Reg.PWR_PROFILE 0 8 then s
  else (s.setRegN Reg.PWR_PROFILE w).logEvent 0x520 0 0x03 w 0

/-- PROFILE_WRITE. -/
def execProfileWrite (v : Word) (master : BitVec 8) (s : State) : Out := .next (s.profileWrite v.toNat master.toNat)

/-! ### The governor (R394 to R396, R403) -/

/-- A cluster of die d is under throttle, and its last thermal step is at least 1 ms ago (R401, R403). -/
def State.thermalDue (s : State) (d : Nat) : Bool :=
  (List.range 4).any (fun c => s.bit (Reg.CLU_THERMST (4 * d + c)) 0) &&
    (match (s.rail d).thermal with | some t => decide (t + 1000000 ≤ s.time) | none => true)

/-- The slow average is above PL1 with the loose limit at 1 throughout the last 64 µs. -/
def State.powerDue (s : State) : Bool :=
  decide (1000 * s.power.profile * 256 < s.power.avgS) && s.fld Reg.PWR_LOOSEK 0 5 == 1 && decide (s.power.kSince + 64000 ≤ s.time)

/-- Estimate of die d. -/
def State.dieEst (s : State) (d : Nat) : Nat := s.fld (Reg.PWR_ESTD0 + 4 * d) 0 24

/-- The highest step that an up-step may reach (R394, R396). -/
def State.ceiling (s : State) : Nat :=
  match s.power.fixedIn with
  | some f => f
  | none => if s.bit Reg.PWR_CTRL 1 then s.fld Reg.PWR_CTRL 2 4 else 6

/-- Die d may step up (R394). -/
def State.mayRise (s : State) (d : Nat) : Bool :=
  let r := s.rail d
  let pl1 : Int := 1000 * ((s.power.profile : Nat) : Int)
  decide (((s.power.avgS : Nat) : Int) < 256 * (pl1 - ((s.fld Reg.PWR_UPMARGIN 0 16 : Nat) : Int))) &&
  decide (s.power.avgF < 1250 * s.power.profile * 256) && s.fld Reg.PWR_LOOSEK 0 5 == 16 && decide (s.power.kSince + 1000000 ≤ s.time) &&
  (List.range 4).all (fun c => decide (s.clusterTemp (4 * d + c) < s.throt - 40)) &&
  r.goal == s.dieStep d && decide (r.goal < s.ceiling) && !r.faulty &&
  (match r.changed with | some t => decide (t + 1000000 ≤ s.time) | none => true)

/-- A thermal step takes die d out of its fixed step (R396). -/
def State.loseFixed (s : State) (d : Nat) : State :=
  match s.power.fixedIn with
  | some _ => (s.sticky Reg.PWR_STATUS 1).logEvent 0x528 1 0x03 d 0
  | none => s

/-- A thermal down-step of die d. -/
def State.thermalStep (s : State) (d : Nat) : State :=
  let s1 := (s.aim d ((s.rail d).goal - 1)).loseFixed d
  s1.setRail d { s1.rail d with thermal := some s.time }

/-- VF_EVALUATION: a die steps down for its temperature or the power, or towards its fixed step; else one die steps up. -/
def execVfEvaluation (s : State) : Out :=
  .next (
    let fixed := if s.bit Reg.PWR_CTRL 0 then some (s.fld Reg.PWR_CTRL 6 4) else none
    let s0 := { s with power := { s.power with fixedIn := fixed } }
    let ds := (List.range s.dies).filter (fun d => !(s0.rail d).faulty)
    let high := ds.filter (fun d => decide (0 < (s0.rail d).goal))
    let hot := high.filter (fun d => s0.thermalDue d)
    let heavy := if fixed.isNone && s0.powerDue then high.filter (fun d => !hot.contains d) else []
    let heavy1 := if heavy.length = 2 then [if s0.dieEst 0 < s0.dieEst 1 then 1 else 0] else heavy
    let back := match fixed with
      | some f => high.filter (fun d => !hot.contains d && decide (f < (s0.rail d).goal))
      | none => []
    let s1 := hot.foldl (fun t d => t.thermalStep d) s0
    let s2 := (heavy1 ++ back).foldl (fun t d => t.aim d ((t.rail d).goal - 1)) s1
    let s3 := if hot.isEmpty && heavy1.isEmpty && back.isEmpty then
        (match ds.filter (fun d => s2.mayRise d) with
        | [d] => s2.aim d ((s2.rail d).goal + 1)
        | d :: e :: _ =>
          let up := if s2.dieStep e < s2.dieStep d then e else d
          s2.aim up ((s2.rail up).goal + 1)
        | [] => s2)
      else s2
    s3.kickRails.judgeEmergency)

/-- VOLTAGE_TRANSACTION_COMPLETE: the voltage write of die d's rail is complete and PWR_SETTLE has passed; a clock raise that waited
for it takes effect. -/
def execVoltageTransactionComplete (d : Fin 2) (s : State) : Out :=
  .next (
    let r := s.rail d.val
    match r.sending with
    | none => s
    | some v =>
      let s1 := (s.setFld (dieReg d.val) 4 10 v).setRail d.val { r with sending := none }
      let s2 := if s1.dieStep d.val < r.goal ∧ s1.ownVolts d.val ≤ v then s1.switchStep d.val r.goal else s1
      s2.kickRails.judgeEmergency)

/-! ### Droop and rail faults (R398, R399) -/

/-- DROOP_DETECTED: the clock of cluster g is stretched. -/
def execDroopDetected (g : Fin 8) (s : State) : Out :=
  .next (if s.bit (Reg.CLU_THERMST g.val) 2 ∨ s.clusters ≤ g.val then s
    else (s.satAdd (Reg.CLU_DROOPEV g.val) 1).putBit (Reg.CLU_THERMST g.val) 2 true)

/-- DROOP_RECOVERED: the clock period of cluster g is restored after a number of stretched cycles. -/
def execDroopRecovered (g : Fin 8) (cycles : Word) (s : State) : Out :=
  .next (if s.bit (Reg.CLU_THERMST g.val) 2 then
      (s.satAdd (Reg.CLU_DROOPCYC g.val) cycles.toNat).putBit (Reg.CLU_THERMST g.val) 2 false
    else s)

/-- The rail of die d is declared faulty for a cause; the die is lost, and no further voltage command goes to the rail. -/
def State.railFault (s : State) (d cause : Nat) : State :=
  if (s.rail d).faulty ∨ s.dies ≤ d then s
  else
    let s1 := s.setRail d { s.rail d with faulty := true, sending := none }
    (((s1.sticky Reg.PWR_IRQ_STATUS 5).logEvent 0x526 3 0x03 (d + 16 * cause) 0).loseDie d).hardMark (16 + d) |>.showRails

/-- DEEP_DROOP_EXPIRY: a deep droop in cluster g has lasted 100 µs. -/
def execDeepDroopExpiry (g : Fin 8) (s : State) : Out := .next (s.railFault (g.val / 4) 1)

/-- The fault bits of STATUS_WORD: VOUT, IOUT, INPUT, POWER_GOOD#, TEMPERATURE. -/
def statusFaulty (w : Nat) : Bool := [15, 14, 13, 11, 2].any (fun i => w.testBit i)

/-- A poll of the rail of die d: its STATUS_WORD, or no answer. -/
def State.pollRail (s : State) (d : Nat) (r : Option Nat) : State :=
  if s.bit (Reg.PMB_RAIL0 + 4 * d) 16 = false ∨ s.dies ≤ d then s
  else
    let q := s.rail d
    match r with
    | some w =>
      let s1 := (s.setFld Reg.PMB_RAILSTAT (16 * d) 16 w).setRail d { q with missed := 0 }
      if statusFaulty w then s1.railFault d 2 else s1
    | none =>
      let s1 := s.setRail d { q with missed := q.missed + 1 }
      if 3 ≤ q.missed + 1 then s1.railFault d 3 else s1

/-- PMBUS_POLL: the poll of both rails, every 1 ms. -/
def execPmbusPoll (r0 r1 : Option (BitVec 16)) (s : State) : Out :=
  .next ((s.pollRail 0 (r0.map (fun v => v.toNat))).pollRail 1 (r1.map (fun v => v.toNat)))

/-! ### The PMBus mailbox (R408) -/

/-- A write of PMB_MBX_CTRL. VOUT_COMMAND to a compute rail regulator is refused, and so is a length above 8 bytes. -/
def State.mbxWrite (s : State) (v : Nat) : State :=
  if v.testBit 20 = false then s
  else
    let compute := (List.range 2).any (fun d => s.bit (Reg.PMB_RAIL0 + 4 * d) 16 && s.fld (Reg.PMB_RAIL0 + 4 * d) 0 7 == v % 128)
    if s.power.mbx.isSome ∨ (field v 8 8 = 0x21 ∧ v.testBit 7 = false ∧ compute = true) ∨ 8 < field v 16 4 then s.sticky Reg.PMB_STATUS 6
    else ({ s with power := { s.power with mbx := some v } }).putBit Reg.PMB_STATUS 2 true

/-- PMB_MAILBOX_TRANSACTION: a write of PMB_MBX_CTRL. -/
def execPmbMailboxTransaction (v : Word) (s : State) : Out := .next (s.mbxWrite v.toNat)

/-- PMB_MAILBOX_DONE: the mailbox transaction ends, acknowledged or not, with a PEC mismatch or not; data: the bytes read. -/
def execPmbMailboxDone (ack pecErr : Bool) (data : List (BitVec 8)) (s : State) : Out :=
  .next (match s.power.mbx with
    | none => s
    | some v =>
      let s1 := (({ s with power := { s.power with mbx := none } }).putBit Reg.PMB_STATUS 2 false).sticky Reg.PMB_STATUS 3
      let s2 := s1.stickyIf (!ack) Reg.PMB_STATUS 4
      if v.testBit 7 then
        let bs := if ack then (data.take 8).map (fun b => b.toNat) else []
        let s3 := (s2.stickyIf (pecErr && s.bit Reg.PMB_CFG 4) Reg.PMB_STATUS 5).setFld Reg.PMB_STATUS 8 4 bs.length
        bs.foldl (fun (t : State × Nat) b => (t.1.setFld (Reg.PMB_MBX_D0 + 4 * (t.2 / 4)) (8 * (t.2 % 4)) 8 b, t.2 + 1)) (s3, 0) |>.1
      else s2)

/-! ### Sensors, throttle, gradient alarm (R400 to R402) -/

/-- Throttle of cluster g starts or ends. -/
def State.judgeThrottle (s : State) (g : Nat) : State :=
  let t := s.clusterTemp g
  let r := Reg.CLU_THERMST g
  if s.bit r 0 = false ∧ s.throt ≤ t then
    ((s.putBit r 0 true).sticky Reg.PWR_IRQ_STATUS 1).logEvent 0x521 1 0x03 (g + 256 * (t / 8).toNat) 0
  else if s.bit r 0 ∧ t < s.throt - 40 then (s.putBit r 0 false).logEvent 0x522 0 0x03 g 0
  else s

/-- The gradient alarm of cluster g over its neighbour h starts or ends. -/
def State.judgePair (s : State) (g h : Nat) : State :=
  let d := s.clusterTemp g - s.clusterTemp h
  let lim : Int := 8 * ((s.fld Reg.PWR_THERM 16 8 : Nat) : Int)
  let on := s.power.grads.contains (g, h)
  let s1 := if on = false ∧ lim < d then
      (({ s with power := { s.power with grads := (g, h) :: s.power.grads } }).sticky Reg.PWR_IRQ_STATUS 2).logEvent 0x523 1 0x03
        (g + 8 * h + 256 * (d / 8).toNat) 0
    else if on = true ∧ d ≤ lim - 40 then { s with power := { s.power with grads := s.power.grads.erase (g, h) } }
    else s
  s1.putBit (Reg.CLU_THERMST g) 1 (s1.power.grads.any (fun e => e.1 == g))

/-- Gradient alarms between cluster g and its neighbours of the die. -/
def State.judgeGradient (s : State) (g : Nat) : State :=
  ([g - 1, g + 1].filter (fun h => h / 4 == g / 4 && h != g && s.converted h)).foldl (fun t h => (t.judgePair g h).judgePair h g) s

/-- SENSOR_CONVERSION: sensor n converts to t in 1/8 °C; ok says that its self-check passed. -/
def execSensorConversion (n : Fin 30) (t : BitVec 16) (ok : Bool) (s : State) : Out :=
  .next (
    let k := n.val
    if s.dies = 1 ∧ 12 ≤ k ∧ k < 24 then s
    else
      let good := ok && decide (-320 ≤ t.toInt) && decide (t.toInt ≤ 1200)
      let s1 := s.setRegN (Reg.PWR_TEMP k) (t.toNat % 4096 + (if good then 4096 else 0))
      let was := s1.power.badSensors.contains k
      let s2 := { s1 with power := { s1.power with badSensors := if good then s1.power.badSensors.erase k else if was then s1.power.badSensors else k :: s1.power.badSensors } }
      let s3 := if good ∨ was = true then s2 else (s2.sticky Reg.PWR_IRQ_STATUS 6).logEvent 0x527 1 0x03 k 0
      let s4 := if k < 24 then
          let g := k / 3
          let s5 := s3.setFld (Reg.CLU_THERMST g) 16 12 (s3.clusterTemp g % 4096).toNat
          ((s5.judgeThrottle g).judgeGradient g).applyLimits
        else s3
      s4.judgeEmergency)

/-- THERMAL_EMERGENCY_EXPIRY: the emergency has lasted 100 ms (R404). -/
def execThermalEmergencyExpiry (s : State) : Out :=
  .next (match s.power.emergency with
    | some _ => s.hedgeEntry 2
    | none => s)

/-! ### The fan (R406) -/

/-- Duty of FAN_PWM as a fraction: numerator and denominator. -/
def State.fanDuty (s : State) : Nat × Nat :=
  if s.bit Reg.PWR_FAN 8 then (s.fld Reg.PWR_FAN 0 8, 255)
  else
    let t := s.packageTemp
    let lo : Int := 8 * ((s.fld Reg.PWR_FANCURVE 0 8 : Nat) : Int)
    let hi : Int := 8 * ((s.fld Reg.PWR_FANCURVE 8 8 : Nat) : Int)
    if t ≤ lo then (20, 100) else if hi ≤ t then (100, 100)
    else (20 * (hi - lo).toNat + 80 * (t - lo).toNat, 100 * (hi - lo).toNat)

/-- FAN_TACH_COUNT: the tachometer pulses of the last second. -/
def execFanTachCount (pulses : BitVec 16) (s : State) : Out :=
  .next (
    let d := s.fanDuty
    let n := if pulses.toNat = 0 ∧ 30 * d.2 ≤ 100 * d.1 then s.power.fanZero + 1 else 0
    let s1 := ({ s with power := { s.power with fanZero := n } }).setRegN Reg.PWR_TACH pulses.toNat
    if n = 2 then ((s1.sticky Reg.PWR_FAN 9).sticky Reg.PWR_IRQ_STATUS 7).logEvent 0x529 2 0x03 0 0 else s1)

/-! ### Wakes (R407) -/

/-- PWR_STATUS.wakeq shows the wakes that wait. -/
def State.showQueue (s : State) : State := s.setFld Reg.PWR_STATUS 5 7 (min s.power.queue.length 127)

/-- Units that the queue serves in one order with unit u: clusters, the cores of one cluster, decode cores. -/
def wakeClass (u : Nat) : Nat := if u < 8 then 0 else if u < 80 then 1 + (u - 8) / 9 else 9

/-- WAKE_START: the first waiting unit of its class starts its wake; a core follows its cluster. -/
def execWakeStart (u : Fin 97) (s : State) : Out :=
  .next (
    let k := u.val
    let first := s.power.queue.find? (fun v => wakeClass v == wakeClass k)
    if first = some k ∧ (k < 8 ∨ 80 ≤ k ∨ s.power.awake.contains ((k - 8) / 9) = true) then
      ({ s with power := { s.power with queue := s.power.queue.erase k, waking := k :: s.power.waking } }).showQueue
    else s)

/-- WAKE_COMPLETE: the wake of a unit is finished. -/
def execWakeComplete (u : Fin 97) (s : State) : Out :=
  .next (if s.power.waking.contains u.val then
      { s with power := { s.power with waking := s.power.waking.erase u.val, awake := u.val :: s.power.awake } }
    else s)

end Sys2Proof.Machine
end

