-- ==== Sys2Proof/Machine/IspStages.lean ====
section
/-! DEFINITION. The image pipeline of the ISP (12_pixel_ports_and_isp.md R326 to R331): exact integer stages from raw samples to
YUV 4:2:0, statistics and the change map. -/

namespace Sys2Proof.Machine

/-! ### Parameters of a context (R332) -/

/-- The active copy of a context register. -/
def State.ispReg (s : State) (a : Nat) : Nat := (Tbl.get Reg.resetValue s.isp.active a).toNat

/-- A signed field. -/
def sfield (v lo w : Nat) : Int :=
  let x : Nat := field v lo w
  if x < 2 ^ (w - 1) then (x : Int) else (x : Int) - 2 ^ w

/-- The parameters that a frame of a port uses. -/
structure IspPar where
  fmt : Nat
  cfa : Nat
  w : Nat
  h : Nat
  ctrl : Nat
  blk : List Nat
  dpc : Nat
  lsc : Array Nat
  wb : List Nat
  dgain : Nat
  ccm : List Int
  ccmOff : List Int
  gamma : Array Nat
  yuv : List Int
  yuvOff : List Nat
  x0 : Nat
  y0 : Nat
  x1 : Nat
  y1 : Nat
  clip : Nat
  chg : Nat
  gen : Nat
  deriving DecidableEq, Repr

/-- Two 16-bit values of a word. -/
def halves (v : Nat) : List Nat := [field v 0 16, field v 16 16]

/-- The parameters of port n. -/
def State.ispPar (s : State) (n : Nat) : IspPar :=
  let r := s.ispReg
  let cfg := s.regN (Reg.PIX_CFG n)
  let geo := s.regN (Reg.PIX_GEOM n)
  let coef := fun (l : List Nat) => (l.flatMap (fun a => let v := r a
    [sfield v 0 16, sfield v 16 16])).take 9
  { fmt := field cfg 0 3, cfa := field cfg 9 2, w := field geo 0 13, h := field geo 16 13, ctrl := r (Reg.ISP_CTX_CTRL n),
    blk := [field (r (Reg.ISP_CTX_BLK01 n)) 0 12, field (r (Reg.ISP_CTX_BLK01 n)) 16 12, field (r (Reg.ISP_CTX_BLK23 n)) 0 12, field (r (Reg.ISP_CTX_BLK23 n)) 16 12],
    dpc := field (r (Reg.ISP_CTX_DPC n)) 0 12,
    lsc := ((List.range 578).flatMap (fun k => halves (r (Reg.ISP_LSC0 (1024 * n + k))))).toArray,
    wb := halves (r (Reg.ISP_CTX_WB01 n)) ++ halves (r (Reg.ISP_CTX_WB23 n)), dgain := field (r (Reg.ISP_CTX_DGAIN n)) 0 16,
    ccm := coef [Reg.ISP_CTX_CCM0 n, Reg.ISP_CTX_CCM1 n, Reg.ISP_CTX_CCM2 n, Reg.ISP_CTX_CCM3 n, Reg.ISP_CTX_CCM4 n],
    ccmOff := [sfield (r (Reg.ISP_CTX_CCMOFF01 n)) 0 13, sfield (r (Reg.ISP_CTX_CCMOFF01 n)) 16 13, sfield (r (Reg.ISP_CTX_CCMOFF2 n)) 0 13],
    gamma := ((List.range 129).map (fun k => field (r (Reg.ISP_GAMMA0 (256 * n + k))) 0 10)).toArray,
    yuv := coef [Reg.ISP_CTX_YUV0 n, Reg.ISP_CTX_YUV1 n, Reg.ISP_CTX_YUV2 n, Reg.ISP_CTX_YUV3 n, Reg.ISP_CTX_YUV4 n],
    yuvOff := [field (r (Reg.ISP_CTX_YUVOFF n)) 0 8, field (r (Reg.ISP_CTX_YUVOFF n)) 8 8, field (r (Reg.ISP_CTX_YUVOFF n)) 16 8],
    x0 := field (r (Reg.ISP_CTX_WIN01 n)) 0 13, y0 := field (r (Reg.ISP_CTX_WIN01 n)) 16 13,
    x1 := field (r (Reg.ISP_CTX_WIN23 n)) 0 13, y1 := field (r (Reg.ISP_CTX_WIN23 n)) 16 13,
    clip := field (r (Reg.ISP_CTX_CLIP n)) 0 12, chg := field (r (Reg.ISP_CTX_CHG n)) 0 12, gen := s.fld (Reg.ISP_CTX_GEN n) 0 16 }

/-- The statistics window of port n's shadow context obeys R330. -/
def State.windowOk (s : State) (n : Nat) : Bool :=
  let f := fun (a lo : Nat) => s.fld a lo 13
  let x0 := f (Reg.ISP_CTX_WIN01 n) 0
  let y0 := f (Reg.ISP_CTX_WIN01 n) 16
  let x1 := f (Reg.ISP_CTX_WIN23 n) 0
  let y1 := f (Reg.ISP_CTX_WIN23 n) 16
  x0 % 2 == 0 && y0 % 2 == 0 && decide (x0 + 64 ≤ x1) && decide (y0 + 64 ≤ y1) && (x1 - x0) % 32 == 0 && (y1 - y0) % 32 == 0 &&
    decide (x1 ≤ f (Reg.PIX_GEOM n) 0) && decide (y1 ≤ f (Reg.PIX_GEOM n) 16)

/-! ### Planes -/

/-- mir(i, n): a coordinate reflected into 0 to n − 1. -/
def mir (i : Int) (n : Nat) : Nat :=
  if i < 0 then (-i).toNat else if (n : Int) ≤ i then (2 * ((n : Int) - 1) - i).toNat else i.toNat

/-- A plane of w by h samples in raster order. -/
def plane (w h : Nat) (f : Nat → Nat → Nat) : Array Nat :=
  ((List.range h).flatMap (fun y => (List.range w).map (fun x => f x y))).toArray

/-- sat(v, lo, hi) of the pseudocode, as a number from 0. -/
def satN (v : Int) (hi : Nat) : Nat := if v < 0 then 0 else min v.toNat hi

/-- CFA position of a pixel. -/
def cfaPos (x y : Nat) : Nat := 2 * (y % 2) + x % 2

/-- Colour of a CFA position: 0 red, 1 green, 2 blue. -/
def cfaColour (cfa c : Nat) : Nat :=
  match cfa with
  | 0 => [0, 1, 1, 2].getD c 1
  | 1 => [1, 0, 2, 1].getD c 1
  | 2 => [1, 2, 0, 1].getD c 1
  | _ => [2, 1, 1, 0].getD c 1

/-! ### Stages 1 to 6 (R326) -/

/-- Stages 1 and 2: 12 bits, black level. -/
def IspPar.stage2 (p : IspPar) (v c : Nat) : Nat := satN (((v * 2 ^ (12 - [8, 10, 12].getD p.fmt 12) : Nat) : Int) - p.blk.getD c 0) 4095

/-- Stage 3: defect pixel correction from the four samples two away. -/
def IspPar.stage3 (p : IspPar) (v : Nat) (nb : List Nat) : Nat :=
  let lo := nb.foldl min (nb.headD 0)
  let hi := nb.foldl max 0
  if nbit p.ctrl 0 = false then v
  else if hi + p.dpc < v then hi
  else if v + p.dpc < lo then lo
  else v

/-- Stage 4: lens shading by the 17 × 17 grid of the CFA position. -/
def IspPar.stage4 (p : IspPar) (v c x y : Nat) : Nat :=
  if nbit p.ctrl 1 = false then v
  else
    let ux := x * 4096 / (p.w - 1)
    let uy := y * 4096 / (p.h - 1)
    let ix := min (ux / 256) 15
    let iy := min (uy / 256) 15
    let fx := ux - ix * 256
    let fy := uy - iy * 256
    let l := fun (j i : Nat) => p.lsc.getD (289 * c + 17 * j + i) 0
    let g := (l iy ix * (256 - fx) + l iy (ix + 1) * fx) * (256 - fy) + (l (iy + 1) ix * (256 - fx) + l (iy + 1) (ix + 1) * fx) * fy
    satN (rheDiv ((v * g : Nat) : Int) (2 ^ 28)) 4095

/-- Stage 6: white balance and digital gain. -/
def IspPar.stage6 (p : IspPar) (v c : Nat) : Nat := satN (rheDiv ((v * p.wb.getD c 0 * p.dgain : Nat) : Int) (2 ^ 24)) 4095

/-- Stage 4 outputs of a raw frame. -/
def IspPar.plane4 (p : IspPar) (raw : Nat → Nat → Nat) : Array Nat :=
  let p2 := plane p.w p.h (fun x y => p.stage2 (raw x y) (cfaPos x y))
  let at2 := fun (x y : Int) => p2.getD (mir y p.h * p.w + mir x p.w) 0
  plane p.w p.h (fun x y =>
    let nb := [at2 (x - 2) y, at2 (x + 2) y, at2 x (y - 2), at2 x (y + 2)]
    p.stage4 (p.stage3 (at2 x y) nb) (cfaPos x y) x y)

/-! ### Stages 7 to 9 -/

/-- round_half_even(sum / n). -/
def rheMean (l : List Nat) (n : Nat) : Nat := (rheDiv ((l.sum : Nat) : Int) n).toNat

/-- Stage 7: red, green and blue of a pixel; a reads the stage 6 plane through mir. -/
def demosaic (cfa : Nat) (a : Int → Int → Nat) (x y : Nat) : Nat × Nat × Nat :=
  let col := cfaColour cfa (cfaPos x y)
  let X : Int := x
  let Y : Int := y
  let own := a X Y
  let orth := rheMean [a (X - 1) Y, a (X + 1) Y, a X (Y - 1), a X (Y + 1)] 4
  let diag := rheMean [a (X - 1) (Y - 1), a (X + 1) (Y - 1), a (X - 1) (Y + 1), a (X + 1) (Y + 1)] 4
  let row := rheMean [a (X - 1) Y, a (X + 1) Y] 2
  let colm := rheMean [a X (Y - 1), a X (Y + 1)] 2
  if col = 0 then (own, orth, diag)
  else if col = 2 then (diag, orth, own)
  else if cfaColour cfa (cfaPos (x + 1) y) = 0 then (row, own, colm) else (colm, own, row)

/-- Stage 8 of one colour: row k of the matrix, offset, gamma. -/
def IspPar.stage8 (p : IspPar) (k : Nat) (r g b : Nat) : Nat :=
  let m := fun i => p.ccm.getD (3 * k + i) 0
  let t := rheDiv (m 0 * r + m 1 * g + m 2 * b) 1024
  let v := satN (t + p.ccmOff.getD k 0) 4095
  if nbit p.ctrl 2 then
    let i := v / 32
    let f := v % 32
    (rheDiv ((p.gamma.getD i 0 * (32 - f) + p.gamma.getD (i + 1) 0 * f : Nat) : Int) 32).toNat
  else v / 4

/-- Stage 9 of one component: row k of the matrix and its offset. -/
def IspPar.stage9 (p : IspPar) (k : Nat) (r g b : Nat) : Nat :=
  let a := fun i => p.yuv.getD (3 * k + i) 0
  satN (rheDiv (a 0 * r + a 1 * g + a 2 * b) (2 ^ 14) + p.yuvOff.getD k 0) 255

/-- What the pipeline makes of a frame: stage 4 outputs (raw Bayer only), the Y plane, and the 4:2:0 chroma planes. -/
structure IspPlanes where
  s4 : Array Nat
  y : Array Nat
  cb : Array Nat
  cr : Array Nat
  deriving DecidableEq, Repr

/-- The pipeline on a frame whose samples are raw x y (stages 1 to 9). A YUV sample holds Y in [7:0] and C in [15:8]. -/
def IspPar.run (p : IspPar) (raw : Nat → Nat → Nat) : IspPlanes :=
  let hw := p.w / 2
  let hh := p.h / 2
  if p.fmt = 3 then
    let c := fun x y => raw x y / 256 % 256
    ⟨#[], plane p.w p.h (fun x y => raw x y % 256), plane hw hh (fun i j => rheMean [c (2 * i) (2 * j), c (2 * i) (2 * j + 1)] 2),
      plane hw hh (fun i j => rheMean [c (2 * i + 1) (2 * j), c (2 * i + 1) (2 * j + 1)] 2)⟩
  else
    let s4 := p.plane4 raw
    let s6 := plane p.w p.h (fun x y => p.stage6 (s4.getD (y * p.w + x) 0) (cfaPos x y))
    let at6 := fun (x y : Int) => s6.getD (mir y p.h * p.w + mir x p.w) 0
    let yuv := ((List.range p.h).flatMap (fun y => (List.range p.w).map (fun x =>
      let (r, g, b) := demosaic p.cfa at6 x y
      let r8 := p.stage8 0 r g b
      let g8 := p.stage8 1 r g b
      let b8 := p.stage8 2 r g b
      (p.stage9 0 r8 g8 b8, p.stage9 1 r8 g8 b8, p.stage9 2 r8 g8 b8)))).toArray
    let at_ := fun x y => yuv.getD (y * p.w + x) (0, 0, 0)
    let four := fun (f : Nat × Nat × Nat → Nat) (i j : Nat) =>
      rheMean [f (at_ (2 * i) (2 * j)), f (at_ (2 * i + 1) (2 * j)), f (at_ (2 * i) (2 * j + 1)), f (at_ (2 * i + 1) (2 * j + 1))] 4
    ⟨s4, yuv.map (fun e => e.1), plane hw hh (four (fun e => e.2.1)), plane hw hh (four (fun e => e.2.2))⟩

/-! ### Statistics (R330, R331) -/

/-- Pixels of a rectangle. -/
def rect (x0 y0 x1 y1 : Nat) : List (Nat × Nat) :=
  (List.range (y1 - y0)).flatMap (fun j => (List.range (x1 - x0)).map (fun i => (x0 + i, y0 + j)))

/-- Mean × 16 of values, rounded half to even. -/
def mean16 (l : List Nat) : Nat := if l.isEmpty then 0 else (rheDiv ((16 * l.sum : Nat) : Int) l.length).toNat

/-- The four values of a zone. -/
def IspPar.zone (p : IspPar) (k : IspPlanes) (ps : List (Nat × Nat)) : List Nat :=
  if p.fmt = 3 then
    let ys := ps.map (fun (x, y) => k.y.getD (y * p.w + x) 0)
    let cs := fun (c : Array Nat) => (ps.filter (fun (x, y) => x % 2 == 0 && y % 2 == 0)).map (fun (x, y) => c.getD (y / 2 * (p.w / 2) + x / 2) 0)
    [mean16 ys, mean16 (cs k.cb), mean16 (cs k.cr), min (ys.filter (fun v => decide (p.clip ≤ v))).length 65535]
  else
    let v := fun (x y : Nat) => k.s4.getD (y * p.w + x) 0
    let of := fun c => (ps.filter (fun (x, y) => cfaColour p.cfa (cfaPos x y) == c)).map (fun (x, y) => v x y)
    [mean16 (of 0), mean16 (of 1), mean16 (of 2), min (ps.filter (fun (x, y) => decide (p.clip ≤ v x y))).length 65535]

/-- The statistics block of a frame. -/
def IspPar.stats (p : IspPar) (k : IspPlanes) (stamp capture : Nat) : List Nat :=
  let ys := (rect p.x0 p.y0 p.x1 p.y1).map (fun (x, y) => k.y.getD (y * p.w + x) 0)
  let W := p.x1 - p.x0
  let H := p.y1 - p.y0
  let hist := if nbit p.ctrl 3 then (List.range 256).flatMap (fun b => leBytes 4 (ys.filter (fun v => v == b)).length) else List.replicate 1024 0
  let zones := (List.range 16).flatMap (fun j => (List.range 16).flatMap (fun i =>
    (p.zone k (rect (p.x0 + i * W / 16) (p.y0 + j * H / 16) (p.x0 + (i + 1) * W / 16) (p.y0 + (j + 1) * H / 16))).flatMap (leBytes 2)))
  leBytes 8 stamp ++ leBytes 8 capture ++ leBytes 4 p.gen ++ [p.x0, p.y0, p.x1, p.y1].flatMap (leBytes 2) ++ leBytes 4 (W * H) ++
    [if p.fmt = 3 then 1 else 0] ++ List.replicate 31 0 ++ hist ++ zones

/-! ### Change map (R328) -/

/-- The value of sub-block (i, j): none where it is not wholly inside the frame. -/
def IspPar.subBlock (p : IspPar) (k : IspPlanes) (i j : Nat) : Option Nat :=
  if 4 * i + 4 ≤ p.w ∧ 4 * j + 4 ≤ p.h then
    some (rheMean ((rect (4 * i) (4 * j) (4 * i + 4) (4 * j + 4)).map (fun (x, y) => k.y.getD (y * p.w + x) 0)) 16)
  else none

/-- Sum over block (x, y) of the differences from the reference; prev reads the reference area. -/
def IspPar.blockDiff (p : IspPar) (k : IspPlanes) (prev : Nat → Nat → Nat) (x y : Nat) : Nat :=
  ((rect (4 * x) (4 * y) (4 * x + 4) (4 * y + 4)).map (fun (i, j) => match p.subBlock k i j with
    | some m => ((m : Int) - prev i j).natAbs
    | none => 0)).sum

end Sys2Proof.Machine
end

