-- ==== Sys2Proof/Machine/Pixel.lean ====
section
/-! DEFINITION. Pixel ports and the slots of the ISP (12_pixel_ports_and_isp.md R313 to R325, R328, R329, R332). -/

namespace Sys2Proof.Machine

/-! ### Ports -/

/-- Pixel port n. -/
def State.pixPort (s : State) (n : Nat) : PixSt := Tbl.get (fun _ => PixSt.init) s.isp.ports n

/-- Sets pixel port n; PIX_STATUS and ISP_STATUS show whether a frame is open. -/
def State.setPort (s : State) (n : Nat) (p : PixSt) : State :=
  let s1 := { s with isp := { s.isp with ports := Tbl.set (fun _ => PixSt.init) s.isp.ports n p } }
  let s2 := (s1.putBit (Reg.PIX_STATUS n) 1 p.frame.isSome).setFld (Reg.PIX_STATUS n) 16 13 (match p.frame with | some f => f.lines | none => 0)
  if s.bit Reg.ISP_CFG 2 = true ∧ s.fld Reg.ISP_CFG 0 2 = n then s2.putBit Reg.ISP_STATUS 3 p.frame.isSome else s2

/-- Port n runs in-line (ISP_CFG). -/
def State.inline (s : State) (n : Nat) : Bool := s.bit Reg.ISP_CFG 2 && s.fld Reg.ISP_CFG 0 2 == n

/-- The variant whose timetables serve the ports: the running one, or in a changeover tick the one that the new image selects. -/
def State.portVariant (s : State) : Option Variant :=
  match s.variant with
  | some v => some v
  | none => s.weave.active.bind s.select

/-- The in-line entry of the ISP timetable. -/
def State.inlineEntry (s : State) : Option IspSlot := s.portVariant.bind (fun v => v.isp.find? (fun e => e.kind == 0))

/-- The pool from which port n draws at the open of a frame (R317). -/
def State.portPool (s : State) (n : Nat) : Option Nat :=
  if s.inline n then s.inlineEntry.map (fun e => e.pool)
  else (s.portVariant.bind (fun v => v.binds.find? (fun b => b.stream == 0x400 + n))).map (fun b => b.pool)

/-- A buffer drawn for port n's stream from a pool; a refusal is counted (R307). -/
def State.drawPort (s : State) (n : Nat) (pool : Option Nat) : Option (Nat × Nat) × State :=
  match pool with
  | none => (none, s)
  | some k =>
    let r := s.drawBuf k (0x400 + n)
    match r.1 with
    | some i => (some (k, i), r.2)
    | none => (none, if (s.poolConf k).isSome then r.2.satAdd Reg.VDEC_POOLEMPTY 1 else r.2)

/-- A buffer is returned at once (R316 to R318). -/
def State.returnBuf (s : State) (b : Option (Nat × Nat)) : State :=
  match b with
  | some (k, i) => { s with vdec := { s.vdec with bufs := s.vdec.bufs.filter (fun x => !(x.pool == k && x.index == i)) } }
  | none => s

/-- A buffer that a slot consumes: its tick boundaries count from the slot (R307). -/
def State.slotBuf (s : State) (b : Option (Nat × Nat)) (held : Bool) : State :=
  match b with
  | some (k, i) => s.modBuf k i (fun x => { x with held := held, ticks := 0 })
  | none => s

/-! ### Commits (R332) -/

/-- Whether a register belongs to the context of port n or to its tables. -/
def ispOwn (n a : Nat) : Bool :=
  (decide (Reg.ISP_CTX_CTRL n ≤ a) && decide (a < Reg.ISP_CTX_COMMIT n)) ||
  (decide (Reg.ISP_LSC0 (1024 * n) ≤ a) && decide (a < Reg.ISP_LSC0 (1024 * n + 578))) ||
  (decide (Reg.ISP_GAMMA0 (256 * n) ≤ a) && decide (a < Reg.ISP_GAMMA0 (256 * n + 129)))

/-- ISP_CTXn_COMMIT.go. -/
def State.ispCommit (s : State) (n : Nat) : State :=
  if s.windowOk n then s.putBit (Reg.ISP_CTX_GEN n) 16 true else s.sticky Reg.ISP_IRQ_STATUS 3

/-- ISP_COMMIT: a write of 1 to ISP_CTXn_COMMIT.go. -/
def execIspCommit (n : Fin 4) (s : State) : Out := .next (s.ispCommit n.val)

/-- A frame start of port n: a pending commit is applied. -/
def State.frameStart (s : State) (n : Nat) : State :=
  if s.bit (Reg.ISP_CTX_GEN n) 16 then
    let mine := s.regs.filter (fun e => ispOwn n e.1)
    let act := mine.foldl (fun t e => Tbl.set Reg.resetValue t e.1 e.2) (s.isp.active.filter (fun e => !ispOwn n e.1))
    let g := (s.fld (Reg.ISP_CTX_GEN n) 0 16 + 1) % 65536
    (({ s with isp := { s.isp with active := act } }).setRegN (Reg.ISP_CTX_GEN n) g).sticky Reg.ISP_IRQ_STATUS 2
  else s

/-! ### Processing (R325 to R330) -/

/-- Processes a frame of port n into the output buffer (pool k, index i): outputs, change map, statistics. Answers the fields of the
handle, whether the map is all set, and whether every DECOUT entry was good. -/
def State.ispProcess (s : State) (n : Nat) (raw : Nat → Nat → Nat) (k i : Nat) (set : List (Option Nat)) (flags stamp capture : Nat) :
    FrameOut × Bool × Bool × State :=
  let p := s.ispPar n
  let t := p.run raw
  let base := s.bufAddr k i
  let hw := p.w / 2
  let o := s.putOuts 17 base p.w p.h (fun x y => t.y.getD (y * p.w + x) 0) (fun x y => t.cb.getD (y * hw + x) 0) (fun x y => t.cr.getD (y * hw + x) 0) set
  let s1 := o.2.2
  let st := s1.pixPort n
  let all := !nbit flags 0 || !st.seen
  let ref := s1.reg64 (Reg.ISP_CMREF_LO n) % 2 ^ 40
  let bw := (p.w + 3) / 4
  let prev := fun (x y : Nat) => s1.byte (ref + y * bw + x)
  let map := mapBytes p.w p.h (fun x y => all || decide (p.chg ≤ p.blockDiff t prev x y))
  let mapAt := base + s1.fld (Reg.ISP_MAPOFF n) 0 24
  let statAt := base + s1.fld (Reg.ISP_STATOFF n) 0 24
  let s2 := s1.agentWrite mapAt map
  let s3 := if nbit flags 0 then
      let r := (List.range ((p.h + 3) / 4)).foldl (fun (acc : List Nat × State) y => (List.range bw).foldl (fun acc x =>
        match p.subBlock t x y with
        | some m => (acc.1 ++ [m], acc.2)
        | none =>
          let f := acc.2.free 8
          (acc.1 ++ [f.1], f.2)) acc) ([], s2)
      r.2.agentWrite ref r.1
    else s2
  let s4 := if nbit flags 1 then s3.agentWrite statAt (p.stats t stamp capture) else s3
  let s5 := s4.setPort n { s4.pixPort n with seen := true }
  let d := match set with
    | some idx :: _ => DecOut.ofBytes (s.fetchOut 17 idx).1
    | _ => DecOut.ofBytes []
  let luma := o.1.headD 0
  let chroma := if d.fmt = 0 ∧ luma ≠ 0 then luma + d.qw * d.qh else 0
  (⟨capture, p.w, p.h, k, i, luma, chroma, mapAt, o.1.drop 1, mapStride p.w, if nbit flags 1 then statAt else 0⟩, all, o.2.1, s5)

/-! ### Frames (R314 to R320) -/

/-- Stamps a frame of port n that closes, or discards it (R317, R318). The ports stamp while the weave runs; a hedge weave that binds
the stream is such a weave. -/
def State.stampPix (s : State) (n : Nat) (f : PixFrame) (outcome flags : Nat) (out : Option FrameOut) : State :=
  let st := 0x400 + n
  let pend := Tbl.get (fun _ => []) s.ingest.pend st
  let runs := s.weaveState == 4 || (s.weaveState == 6 && s.weave.hedgeAt.isNone)
  if runs = false ∨ s.weave.bound.contains st = false then (s.satAdd (Reg.PIX_UNBOUND n) 1).returnBuf f.buffer
  else if 16 ≤ pend.length then ((s.satAdd (Reg.PIX_NOBUF n) 1).sticky (Reg.PIX_IRQ_STATUS n) 3).returnBuf f.buffer
  else
    let k := Tbl.get (fun _ => 0) s.weave.nextFrame st
    let e : Stamped := { frame := k, capture := f.capture, outcome := outcome, flags := flags, lost := 0, rtp := 0, offset := 0, length := 0, buffer := f.buffer, out := out, after := s.bit Reg.WV_STATUS 6 }
    { s with
      ingest := { s.ingest with pend := Tbl.set (fun _ => []) s.ingest.pend st (pend ++ [e]) },
      weave := { s.weave with nextFrame := Tbl.set (fun _ => 0) s.weave.nextFrame st ((k + 1) % 2 ^ 32) } }

/-- Counts the close of a frame: event 0 good, 1 malformed, 2 timeout. -/
def State.countClose (s : State) (n event : Nat) (buffer : Bool) : State :=
  if buffer = false then (s.satAdd (Reg.PIX_NOBUF n) 1).sticky (Reg.PIX_IRQ_STATUS n) 3
  else (s.satAdd (if event = 0 then Reg.PIX_FRAMES n else if event = 1 then Reg.PIX_MALFORMED n else Reg.PIX_TIMEOUTS n) 1).sticky
    (Reg.PIX_IRQ_STATUS n) event

/-- The open frame of port n closes (R315, R322): a good in-line frame is processed first. -/
def State.closeFrame (s : State) (n event : Nat) : State :=
  let p := s.pixPort n
  match p.frame with
  | none => s
  | some f =>
    let s1 := (s.setPort n { p with frame := none, good := event == 0 }).countClose n event f.buffer.isSome
    let s2 := s1.setRegN (Reg.PIX_LASTGEOM n) (f.wide % 8192 + f.lines % 8192 * 65536)
    let reason := if f.buffer.isNone then holeNoBuffer else if event = 0 then (if f.bad then holeUncorrectable else 0) else if event = 1 then holeMalformed else holeFrameTimeout
    match f.buffer, reason, s2.inline n, s2.inlineEntry with
    | some (k, i), 0, true, some e =>
      let raw := fun x y => (f.pixels.getD y []).getD x 0
      let stamp := stampOf (0x400 + n) (Tbl.get (fun _ => 0) s2.weave.nextFrame (0x400 + n)) 0
      let r := s2.ispProcess n raw k i (s2.outSet e.outputs) e.flags stamp f.capture
      let s3 := r.2.2.2.satAdd Reg.ISP_INLINE 1
      s3.stampPix n f (if r.2.2.1 then 0 else holeMalformed) (if r.2.1 then 4 else 0) (some r.1)
    | _, _, _, _ => s2.stampPix n f reason 0 none

/-- PIXEL_VSYNC_EDGE: an active VSYNC edge. -/
def execPixelVsyncEdge (n : Fin 4) (time : BitVec 64) (s : State) : Out :=
  .next (
    let k := n.val
    let s1 := match (s.pixPort k).frame with
      | some f => s.closeFrame k (if f.done then 0 else 1)
      | none => s
    let s2 := (s1.setPort k { s1.pixPort k with edge := time.toNat, good := false }).putBit (Reg.PIX_STATUS k) 0 true
    if s2.bit (Reg.PIX_CTRL k) 0 then
      let s3 := if s2.inline k then s2.frameStart k else s2
      let r := s3.drawPort k (s3.portPool k)
      let cap := (time.toNat + 2 ^ 64 - s.regN (Reg.PIX_CAPOFF k)) % 2 ^ 64
      let f : PixFrame := { since := time.toNat, capture := cap, buffer := r.1, edges := 0, lines := 0, wide := 0, pixels := [], done := false, bad := false }
      r.2.setPort k { r.2.pixPort k with frame := some f }
    else s2)

/-- Bytes per pixel of a raw buffer. -/
def bytesPerPixel (fmt : Nat) : Nat := if fmt = 0 then 1 else 2

/-- Line pitch of the raw buffer of port n (R322). -/
def State.rawPitch (s : State) (n : Nat) : Nat := (s.fld (Reg.PIX_GEOM n) 0 13 * bytesPerPixel (s.fld (Reg.PIX_CFG n) 0 3) + 63) / 64 * 64

/-- The sample of a DATA value in a format: its lanes, and Y in [7:0] and C in [15:8] for YUV (Table, Pixel formats). -/
def pixelSample (fmt : Nat) (swap : Bool) (v : Nat) : Nat :=
  match fmt with
  | 0 => v % 256
  | 1 => v % 1024
  | 2 => v % 4096
  | _ => if swap then v / 256 + v % 256 * 256 else v

/-- A line of active pixels arrives in the open frame: it is kept for in-line processing or written to the raw buffer. -/
def State.pixLine (s : State) (n : Nat) (f : PixFrame) (vs : List Nat) : State :=
  let fmt := s.fld (Reg.PIX_CFG n) 0 3
  let px := vs.map (pixelSample fmt (s.bit (Reg.PIX_CFG n) 8))
  let last := decide (s.fld (Reg.PIX_GEOM n) 16 13 ≤ f.lines + 1)
  let f1 := { f with lines := f.lines + 1, wide := vs.length, done := last }
  if s.inline n then s.setPort n { s.pixPort n with frame := some { f1 with pixels := f.pixels ++ [px] } }
  else
    let s1 := match f.buffer with
      | some (k, i) => s.agentWrite (s.bufAddr k i + f.lines * s.rawPitch n) (px.flatMap (leBytes (bytesPerPixel fmt)))
      | none => s
    s1.setPort n { s1.pixPort n with frame := some f1 }

/-- PIXEL_LINE_END: a line ends. samples are the DATA values of the DE run in DE mode, of the line from its active HSYNC edge on in
sync mode (R313, R314). -/
def execPixelLineEnd (n : Fin 4) (samples : List (BitVec 16)) (s : State) : Out :=
  .next (
    let k := n.val
    let p := s.pixPort k
    let vs := samples.map (fun b => b.toNat)
    let w := s.fld (Reg.PIX_GEOM k) 0 13
    let extra := if s.bit (Reg.PIX_CFG k) 7 then (s.satAdd (Reg.PIX_EXTRA k) 1).sticky (Reg.PIX_IRQ_STATUS k) 6 else s
    match p.frame with
    | none => if p.good then extra else s
    | some f =>
      if f.done then extra
      else if s.bit (Reg.PIX_CFG k) 7 then
        (if vs.length = w then s.pixLine k f vs
         else (s.setPort k { p with frame := some { f with lines := f.lines + 1, wide := vs.length } }).closeFrame k 1)
      else
        let first := s.fld (Reg.PIX_WIN k) 16 12
        let f1 := { f with edges := f.edges + 1 }
        let act := (vs.drop (s.fld (Reg.PIX_WIN k) 0 12)).take w
        if f.edges < first then s.setPort k { p with frame := some f1 }
        else if act.length = w then s.pixLine k f1 act
        else (s.setPort k { p with frame := some { f1 with lines := f.lines + 1, wide := act.length } }).closeFrame k 1)

/-- PIXEL_FRAME_CLOSE: the data of a frame whose last active pixel has arrived is in its buffer, or processed (R322). -/
def execPixelFrameClose (n : Fin 4) (s : State) : Out :=
  .next (match (s.pixPort n.val).frame with
    | some f => if f.done then s.closeFrame n.val 0 else s
    | none => s)

/-- PIXEL_FRAME_TIMEOUT: PIX_TIMEOUT has passed since the open. -/
def execPixelFrameTimeout (n : Fin 4) (s : State) : Out :=
  .next (match (s.pixPort n.val).frame with
    | some f => if f.done = false ∧ f.since + 1000 * s.fld (Reg.PIX_TIMEOUT n.val) 0 20 < s.time + 1000 then s.closeFrame n.val 2 else s
    | none => s)

/-- PIXEL_NO_SIGNAL: no active VSYNC edge has arrived for PIX_NOSIG ms (R320). -/
def execPixelNoSignal (n : Fin 4) (s : State) : Out :=
  .next (
    let k := n.val
    if s.bit (Reg.PIX_STATUS k) 0 = true ∧ (s.pixPort k).edge + 1000000 * s.fld (Reg.PIX_NOSIG k) 0 10 < s.time + 1000 then
      (s.putBit (Reg.PIX_STATUS k) 0 false).sticky (Reg.PIX_IRQ_STATUS k) 4
    else s)

/-- PCLK_MEASURE: the 1 ms measurement of a port's PCLK ends. -/
def execPclkMeasure (n : Fin 4) (khz : BitVec 18) (s : State) : Out :=
  .next (
    let k := n.val
    let s1 := s.setRegN (Reg.PIX_PCLKMEAS k) khz.toNat
    if s1.inline k = true ∧ s1.fld Reg.ISP_CFG 8 8 * 102000 < khz.toNat * 100 then
      let s2 := s1.sticky (Reg.PIX_IRQ_STATUS k) 5
      match (s2.pixPort k).frame with
      | some f => if f.done then s2 else s2.closeFrame k 1
      | none => s2
    else s1)

/-- A write to PIX_CTRL (R316, R328). -/
def State.pixEnable (s : State) (n v : Nat) : State :=
  let p := s.pixPort n
  if v.testBit 0 then (s.setPort n { p with seen := false }).putBit (Reg.PIX_CTRL n) 0 true
  else
    let s1 := match p.frame with
      | some f => (s.returnBuf f.buffer).setPort n { p with frame := none }
      | none => s
    s1.putBit (Reg.PIX_CTRL n) 0 false

/-- PIXEL_PORT_ENABLE. -/
def execPixelPortEnable (n : Fin 4) (v : Word) (s : State) : Out := .next (s.pixEnable n.val v.toNat)

/-- A write to PIX_CFG, PIX_GEOM or PIX_WIN, by register offset (R314, R316). -/
def State.pixConfig (s : State) (n off v : Nat) : State :=
  let rej := s.sticky (Reg.PIX_STATUS n) 2
  if s.bit (Reg.PIX_CTRL n) 0 then rej
  else if off = 0x4 then
    (if v % 8 < 4 then s.setRegN (Reg.PIX_CFG n) (v % 2048)
     else rej.setRegN (Reg.PIX_CFG n) (v % 2048 - v % 8 + s.fld (Reg.PIX_CFG n) 0 3))
  else if off = 0x8 then
    (if v % 2 ≠ 0 ∨ (s.fld (Reg.PIX_CFG n) 0 3 ≠ 3 ∧ v / 65536 % 2 ≠ 0) then rej
     else s.setRegN (Reg.PIX_GEOM n) (v % 8192 + v / 65536 % 8192 * 65536))
  else s.setRegN (Reg.PIX_WIN n) (v % 4096 + v / 65536 % 4096 * 65536)

/-! ### ISP slots (R323, R324, R329) -/

/-- The frame of an ISP slot is a hole (R323). -/
def State.ispHole (s : State) (n : Nat) (f : Stamped) (reason : Nat) : State := (s.holeFrame (0x400 + n) f reason 0).slotBuf f.buffer false

/-- A processed frame is published: handle with outcome 1; its buffer is the port's previous output. -/
def State.ispPublish (s : State) (n : Nat) (f : Stamped) (o : FrameOut) (all : Bool) : State :=
  let st := 0x400 + n
  let fl := (if s.isLate f.capture then 2 else 0) + (if all then 4 else 0)
  ((s.setPrevBuf st o.pool o.index).releaseBuf o.pool o.index).putHandle st (handleBytes (stampOf st f.frame 0) f.capture s.tick 1 fl 0 o)

/-- A memory pass begins on a good frame. -/
def State.beginPass (s : State) (d : IspSlot) (f : Stamped) : State :=
  let s1 := s.frameStart d.port
  let r := s1.drawPort d.port (some d.pool)
  match r.1 with
  | none => r.2.ispHole d.port f holeNoBuffer
  | some (k, i) =>
    let run : IspRun := { port := d.port, frame := f, pool := k, index := i, outputs := d.outputs, flags := d.flags, last := s.weave.tickPick + d.pick + d.deadline }
    let s2 := r.2.slotBuf f.buffer true
    ({ s2 with isp := { s2.isp with pass := some run } }).setFld Reg.ISP_STATUS 0 3 (1 + 2 * d.port)

/-- A slot of the ISP timetable opens (R323). -/
def State.openIsp (s : State) (d : IspSlot) : State :=
  let n := 0x400 + d.port
  let pend := Tbl.get (fun _ => []) s.ingest.pend n
  match pend with
  | [] => (s.pushOpening n ⟨none, []⟩).noneHandle n
  | first :: _ =>
    let hAllow := match s.binding n with | some b => b.hAllow | none => 0
    let k := min pend.length (hAllow + 1)
    let f := pend.getD (k - 1) first
    let passed := pend.take (k - 1)
    let slow := s.slowStream n
    let why := fun (a : Stamped) => if a.outcome ≠ 0 then a.outcome else if slow then holeReducedRate else holeSuperseded
    let o : Opening := ⟨some ⟨f.frame, f.capture, s.lateFlag f.capture, none, 0, false⟩, passed.map (fun a => (a.frame, a.capture, why a))⟩
    let s1 := { s with ingest := { s.ingest with pend := Tbl.set (fun _ => []) s.ingest.pend n (pend.drop k) } }
    let s2 := passed.foldl (fun t a => t.slotBuf a.buffer false) (s1.pushOpening n o)
    if f.outcome ≠ 0 then s2.ispHole d.port f f.outcome
    else if d.kind = 0 then
      match f.out with
      | some out => (s2.slotBuf f.buffer false).ispPublish d.port f out (nbit f.flags 2)
      | none => s2.ispHole d.port f holeMissingInput
    else s2.beginPass d f

/-- ISP_SLOT_OPEN: entry i of the running variant's ISP timetable opens. -/
def execIspSlotOpen (i : BitVec 16) (s : State) : Out :=
  .next (match s.variant.bind (fun v => v.isp[i.toNat]?) with
    | none => s
    | some d =>
      if s.ticking = false ∨ s.isp.opened.contains i.toNat = true ∨ s.offset < d.pick ∨ (d.kind ≠ 0 ∧ s.isp.pass.isSome) then s
      else ({ s with isp := { s.isp with opened := i.toNat :: s.isp.opened } }).openIsp d)

/-- The memory pass that was running is over. -/
def State.dropPass (s : State) (r : IspRun) : State :=
  ((({ s with isp := { s.isp with pass := none } }).setFld Reg.ISP_STATUS 0 3 0).releaseBuf r.pool r.index).slotBuf r.frame.buffer false

/-- ISP_PASS_COMPLETE: the running memory pass has processed its raw frame. -/
def execIspPassComplete (s : State) : Out :=
  .next (match s.isp.pass, s.isp.pass.bind (fun r => r.frame.buffer) with
    | some r, some (k, i) =>
      let n := r.port
      let base := s.bufAddr k i
      let bpp := bytesPerPixel (s.fld (Reg.PIX_CFG n) 0 3)
      let pitch := s.rawPitch n
      let raw := fun x y => s.le (base + y * pitch + x * bpp) bpp
      let stamp := stampOf (0x400 + n) r.frame.frame 0
      let o := s.ispProcess n raw r.pool r.index (s.outSet r.outputs) r.flags stamp r.frame.capture
      let s1 := (o.2.2.2.satAdd Reg.ISP_PASSES 1).sticky Reg.ISP_IRQ_STATUS 0
      if o.2.2.1 then (s1.dropPass r).ispPublish n r.frame o.1 o.2.1
      else (s1.dropPass r).ispHole n r.frame holeMalformed
    | _, _ => s)

/-- ISP_PASS_CUTOFF: the running memory pass has reached its deadline (R324). -/
def execIspPassCutoff (s : State) : Out :=
  .next (match s.isp.pass with
    | some r =>
      if s.pickNow < r.last then s
      else (((s.satAdd Reg.ISP_OVRUN 1).sticky Reg.ISP_IRQ_STATUS 1).dropPass r).ispHole r.port r.frame holeMissingInput
    | none => s)

end Sys2Proof.Machine
end

