-- ==== Sys2Proof/Machine/Ras.lean ====
section
/-! DEFINITION. On-chip error codes, patrols, hard faults, the software scrub pass and lost clock domains
(14_resilience_and_failover.md R359 to R371, R381). -/

namespace Sys2Proof.Machine

/-! ### On-chip memories (R359 to R361, R371) -/

/-- The memory lies in a physical core. -/
def sramInCore : SramKind → Bool
  | .scratchpad | .accumulators | .program | .descriptorCache | .registers | .commandQueues | .recordQueue _ _ => true
  | _ => false

/-- The memory lies in a cluster cache. -/
def sramInCluster : SramKind → Bool
  | .carryWays _ | .programWays | .weightStore | .readCache => true
  | _ => false

/-- Source byte of the error log for a memory of a unit (R387). -/
def sramSource (k : SramKind) (unit : Nat) : Nat :=
  if sramInCore k then srcOfCore unit
  else if sramInCluster k then srcCluster unit
  else match k with
    | .checkCache => 9 + unit
    | .appL2 => 0x50
    | .decoderBuffers => 0x20
    | .ispLines => 0x2C
    | _ => 0x49

/-- Kind of the entry that retires the unit that holds a macro without spares (Table, Retirement when spares are exhausted). -/
def sramRetirement (k : SramKind) : Option Nat :=
  if sramInCore k then some 3
  else if sramInCluster k then some 6
  else match k with
    | .decoderBuffers => some 4
    | .systemClean | .systemDirty => some 5
    | _ => none

/-- The eight lines whose check bytes lie in the check block of address a (R337). -/
def State.checkLines (s : State) (a : Nat) : List Nat :=
  let p := s.dramDecode a
  let span := if s.fld Reg.DMC_CFG 0 2 = 2 then 0x100000 else 0x80000
  ((List.range (span / 128)).map (fun i => (a / span * span) / 128 + i)).filter (fun l =>
    let q := s.dramDecode (128 * l)
    q.ch == p.ch && q.rank == p.rank && q.bank == p.bank && q.row == p.row && q.col / 8 == p.col / 8)

/-- The frame that the ISP is processing takes hole reason UNCORRECTABLE: the running memory pass, or the open in-line frame of
port n. -/
def State.ispUncorr (s : State) (n : Nat) : State :=
  match s.isp.pass with
  | some r => (s.dropPass r).ispHole r.port r.frame holeUncorrectable
  | none =>
    match (s.pixPort n).frame with
    | some f => if s.inline n then s.setPort n { s.pixPort n with frame := some { f with bad := true } } else s
    | none => s

/-- What an uncorrectable word does (Table, Error codes of device memories). -/
def State.sramUncorr (s : State) (k : SramKind) (unit a : Nat) : State :=
  match k with
  | .scratchpad | .accumulators =>
    (match tagKey a with
    | some (q, key) => s.setBlockTag q key ((Tag.ofCause .uncorrectable).join (s.blockTag q key))
    | none => s)
  | .program => s.haltCore unit haltUncorrCtrl 0 a false
  | .descriptorCache => s.haltCore unit haltUncorrCtrl 1 a false
  | .registers => s.haltCore unit haltUncorrCtrl 2 a false
  | .commandQueues => s.haltCore unit haltUncorrCtrl 3 a false
  | .recordQueue q i =>
    s.modCore unit (fun c =>
      let l := Tbl.get (fun _ => []) c.queues q.val
      { c with queues := Tbl.set (fun _ => []) c.queues q.val (l.mapIdx (fun j (e : QEntry) => if j == i.toNat then { e with uncorr := true } else e)) })
  | .carryWays l => { s with weave := { s.weave with shadowMark := Tbl.set (fun _ => none) s.weave.shadowMark l.val none } }
  | .programWays =>
    (match s.failover unit with
    | some f => if f.loaded.isNone then s.abortFailover unit else s
    | none => s)
  | .weightStore => s.markLine (a / 128) true
  | .readCache => { s with ccache := Tbl.erase (lineKey unit (a / 128)) s.ccache }
  | .systemClean | .appL2 | .other => s
  | .systemDirty => s.markLine (a / 128) true
  | .checkCache => (s.checkLines a).foldl (fun t l => t.markLine l true) s
  | .decoderBuffers => s.decoderFaulty unit
  | .ispLines => s.ispUncorr unit

/-- SRAM_PATROL: a patrol has read the word at addr in macro mac of a memory of a unit. A corrected word is written back and will be
read again. -/
def execSramPatrol (kind : SramKind) (unit : BitVec 7) (mac : BitVec 16) (addr : BitVec 40) (r : SramResult) (s : State) : Out :=
  let u := unit.toNat
  let src := sramSource kind u
  let detail := mac.toNat + u * 0x10000
  .next (match r with
    | .clean => s
    | .corrected =>
      let s1 := (s.satAdd Reg.RAS_CE_SRAM 1).logEvent 0x501 1 src detail addr.toNat
      { s1 with dram := { s1.dram with recheck := s1.dram.recheck ++ [(kind, u, mac.toNat)] } }
    | .uncorrectable => ((s.satAdd Reg.RAS_UE_SRAM 1).logEvent 0x503 2 src detail addr.toNat).sramUncorr kind u addr.toNat)

/-- HARD_FAULT_RECHECK: the oldest corrected word is read again. still: it needs correction again. column, index: the spare kind that
covers the fault and its number; factory: factory entries of that kind for the macro, of its two spares (R362, R365). -/
def execHardFaultRecheck (still column : Bool) (index : BitVec 16) (factory : Fin 3) (s : State) : Out :=
  .next (match s.dram.recheck with
    | [] => s
    | (k, u, mac) :: rest =>
      let s1 := { s with dram := { s.dram with recheck := rest } }
      if still then
        let s2 := (s1.satAdd Reg.RAS_HARD 1).logEvent 0x502 1 (sramSource k u) (mac + u * 0x10000) 0
        let kind := if column then 2 else 1
        let used := (s2.dram.repairs.filter (fun e => e.kind == kind && e.unit == u && e.mac == mac)).length + factory.val
        if used < 2 then s2.addRepair kind u mac index.toNat
        else match sramRetirement k with
          | some r => s2.addRepair r u 0 0
          | none => s2.logEvent 0x50E 2 0x49 (mac + u * 0x10000) 0
      else s1)

/-! ### The software scrub pass (R367 to R370) -/

/-- A write of SCRB_CTRL: go, then abort. -/
def State.scrubGo (s : State) : State :=
  let a := s.reg64 Reg.SCRB_START_LO
  let n := s.reg64 Reg.SCRB_LEN_LO
  let inDram := decide (a + n ≤ s.dramBytes)
  let inWin := decide (0x1300000000 ≤ a) && decide (a + n ≤ 0x1300000000 + s.windowBytes)
  if a % 128 ≠ 0 ∨ n % 128 ≠ 0 ∨ (inDram || inWin) = false ∨ s.bit Reg.SCRB_STATUS 0 = true then s.sticky Reg.SCRB_STATUS 2
  else
    let k : ScrubSt := { start := a, next := a, stop := a + n, ce := 0, ue := 0, first := none, last := 0, since := s.time, abort := false, chan := false }
    let s1 := (s.clearRegs Reg.SCRB_SUM_BYTES_LO (Reg.SCRB_SUM_STAT + 4)).putBit Reg.SCRB_STATUS 0 true
    ({ s1 with dram := { s1.dram with scrub := some k } }).setReg64 Reg.SCRB_POS_LO a

/-- SCRB_CTRL.abort. -/
def State.scrubAbort (s : State) : State :=
  { s with dram := { s.dram with scrub := s.dram.scrub.map (fun k => { k with abort := true }) } }

/-- SCRUB_GO: a write of 1 to SCRB_CTRL.go. -/
def execScrubGo (s : State) : Out := .next s.scrubGo

/-- SCRUB_ABORT: a write of 1 to SCRB_CTRL.abort. -/
def execScrubAbort (s : State) : Out := .next s.scrubAbort

/-- The software pass ends: the summary is written (R370). -/
def State.scrubEnd (s : State) (k : ScrubSt) : State :=
  let win := decide (0x1300000000 ≤ k.start)
  let stat := (if k.abort then 2 else 1) + (if win then 4 else 0) + (if k.chan then 8 else 0)
  let s1 := ((({ s with dram := { s.dram with scrub := none } }).setReg64 Reg.SCRB_SUM_BYTES_LO (k.next - k.start)).setRegN
    Reg.SCRB_SUM_CE (min k.ce 0xFFFFFFFF)).setRegN Reg.SCRB_SUM_UE (min k.ue 0xFFFFFFFF)
  let s2 := ((s1.setReg64 Reg.SCRB_SUM_FIRST_LO (k.first.getD 0)).setReg64 Reg.SCRB_SUM_LAST_LO k.last).setRegN
    Reg.SCRB_SUM_TIME (min ((s.time - k.since) / 1000) 0xFFFFFFFF)
  let s3 := ((s2.setRegN Reg.SCRB_SUM_STAT stat).putBit Reg.SCRB_STATUS 0 false).sticky Reg.SCRB_STATUS 3
  s3.logEvent 0x512 0 0x48 (if k.abort then 1 else 0) 0

/-- SCRUB_PASS_END: every line of the pass has been read, or it was aborted. lines: the failing lines of a range in the system cache
window, with whether each is uncorrectable; lines of DRAM have been counted as they were read. -/
def execScrubPassEnd (lines : List (BitVec 40 × Bool)) (s : State) : Out :=
  .next (match s.dram.scrub with
    | none => s
    | some k =>
      if 0x1300000000 ≤ k.start then
        let s1 := lines.foldl (fun t l => t.scrubFail l.1.toNat l.2) s
        match s1.dram.scrub with
        | some k1 =>
          let n := if k1.abort then k1.next else k1.stop
          (s1.setReg64 Reg.SCRB_POS_LO n).scrubEnd { k1 with next := n }
        | none => s1
      else
        let busy := (List.range 16).any (fun ch => ((s.chan ch).reads ++ (s.chan ch).flight).any (fun r => r.scrub))
        if busy ∨ (k.abort = false ∧ k.next < k.stop) then s else s.scrubEnd k)

/-! ### Lost clock domains (R381, R429) -/

/-- CLOCK_DOMAIN_NO_ANSWER: the clock domain of cluster g has not answered for 10 µs. -/
def execClockDomainNoAnswer (g : Fin 8) (s : State) : Out :=
  .next (if g.val < s.clusters then (s.loseCluster g.val).hardMark (8 + g.val) else s)

end Sys2Proof.Machine
end

