-- ==== Sys2Proof/Machine/Reset.lean ====
section
/-! DEFINITION. Reset sources, levels and regimes, L3 resets, watchdogs and clock loss (16_reset_clocks_straps.md R411 to R431;
R26, R219, R362). -/

namespace Sys2Proof.Machine

/-! ### What each level clears (R412, R413, R418) -/

/-- Registers of I/O die block b at their reset values. -/
def State.clearBlock (s : State) (b : Nat) : State := s.clearRegs (Reg.blk b) (Reg.blk b + 0x100000)

/-- State of a block outside its registers at its reset value. -/
def State.clearUnit (s : State) (b : Nat) : State :=
  if b = 0x20 then { s with vdec := { VdecSt.init with bufs := s.vdec.bufs.filter (fun f => decide (0x400 ≤ f.stream)) } }
  else if 0x28 ≤ b ∧ b ≤ 0x2B then s.setPort (b - 0x28) PixSt.init
  else if b = 0x2C then { s with isp := { IspSt.init with ports := s.isp.ports } }
  else if b = 0x30 then { s with ingest := IngestSt.init }
  else if b = 0x38 then { s with host := { s.host with vectors := [], msi := [] } }
  else if b = 0x48 then { s with dram := { s.dram with scrub := none } }
  else if b = 0x51 then
    { s with host := { s.host with rsp := [] }, dict := { s.dict with sessions := Tbl.set (fun _ => none) s.dict.sessions 8 none } }
  else if b = 0x58 then { s with host := { s.host with gpioFree := false, pps := false } }
  else if b = 0x32 then { s with host := { s.host with mdio := none } }
  else s

/-- Block b back at its reset state. -/
def State.resetBlock (s : State) (b : Nat) : State := (s.clearBlock b).clearUnit b

/-- Blocks whose weakest clearing level is L2 (Table, What each level clears). -/
def l2Blocks : List Nat := [0x40, 0x41, 0x20, 0x21, 0x22, 0x28, 0x29, 0x2A, 0x2B, 0x2C, 0x30, 0x31]

/-- Blocks that L1 clears, but for the system, power and fuse blocks, which hold values that survive. -/
def l1Blocks : List Nat :=
  [0x02, 0x05, 0x06] ++ (List.range 17).map (· + 0x08) ++ [0x33, 0x49, 0x5B, 0x48, 0x32, 0x38, 0x50, 0x51, 0x58, 0x59, 0x5A]

/-- An interrupted fuse programming leaves its bit unprogrammed in some copies (R448): in how many is a free value. -/
def State.cutFuse (s : State) : State :=
  match s.boot.fuseBusy with
  | none => s
  | some b =>
    let r := s.free 2
    let n := max (Tbl.get (fun _ => 0) s.boot.fuses b) (r.1 % 3)
    ({ r.2 with boot := { r.2.boot with fuseBusy := none, fuses := Tbl.set (fun _ => 0) r.2.boot.fuses b n } }).putBit Reg.FUSE_PROG_STAT 0 false

/-- Free values in the words that an interrupted NVM write covers (R506). -/
def State.cutNvm (s : State) : State :=
  match s.host.nvm with
  | none => s
  | some (off, ws) =>
    let r := s.freeBytes (4 * ws.length)
    ({ r.2 with host := { r.2.host with nvm := none } }).setBytes (0x1401000000 + off) r.1

/-- Every compute core, cluster and the data path blocks at their reset state: what L2 clears. -/
def State.clearL2 (s : State) : State :=
  let s1 := l2Blocks.foldl State.resetBlock s
  let s2 := (s1.clearRegs 0x1000000000 0x10C0800000).clearMem 0x1000000000 0x1090000000
  let s3 := s2.clearMem (2 ^ 40) (cacheBase 8)
  let s4 := { s3 with cores := [], roleInval := [], pshadow := [], pactive := [], ccache := [], wsFilled := [], pushes := [], notices := [] }
  { s4 with weave := WeaveSt.init, jobs := JobsSt.init, vdec := VdecSt.init, isp := IspSt.init }

/-- Free values in the bytes of every line that the system cache holds dirty: an L1 reset initialises the cache, and DRAM keeps
what it held before. -/
def State.loseDirty (s : State) : State :=
  let ls := s.dram.cache.flatMap (fun e => e.2.ways.filterMap (fun w => match w.2 with | some l => if l.dirty then some l.line else none | none => none))
  ls.foldl (fun t l => let r := t.freeBytes 128; r.2.setBytes (128 * l) r.1) s

/-- What L1 clears beyond L2. The steward's state goes: the power wakes, dictionary sessions, boot and handover state. -/
def State.clearL1 (s : State) : State :=
  let prof := s.regN Reg.PWR_PROFILE
  let s0 := s.loseDirty.cutNvm
  let s1 := l1Blocks.foldl State.resetBlock s0
  let s2 := s1.clearRegs (Reg.SYS_PARTID + 4) (Reg.blk 1)
  let s3 := ((s2.clearRegs (Reg.blk 3) (Reg.PWR_COEF 0)).clearRegs (Reg.blk 3 + 0x400) (Reg.blk 4)).setRegN Reg.PWR_PROFILE prof
  let s4 := s3.clearMem windowBase (windowBase + 0x2000000)
  let s5 := { s4 with pairs := [], events := 0, power := { PowerSt.init with profile := prof }, telem := [], stepRest := 0, badLines := s4.badLines.filter (fun e => decide (e.1 < 2 ^ 29)) }
  let s6 := { s5 with dram := { s5.dram with chans := [], cache := [], rfm := 0, scrub := none, recheck := [], hwHalts := [] } }
  let s7 := { s6 with boot := { s6.boot with run := none, rest := none, half0 := [], half1 := [], svns := [0, 0, 0, 0], handed := false, attesting := false, report := none } }
  let s8 := { s7 with dict := { s7.dict with sessions := [], vals := [], stores := [], sent := [] } }
  { s8 with host := { s8.host with vectors := [], msi := [], rsp := [], nvm := none, mdio := none, gpioFree := false, pps := false } }

/-- What L0 clears beyond L1: RST_, PWR_PROFILE, the lock and status of the fuse block, DRAM contents. The fuse shadows and the
repair log copy are read again at the release. -/
def State.clearL0 (s : State) : State :=
  let map := s.regN Reg.RST_MAP0
  let s1 := ((s.clearBlock 0x01).setRegN Reg.RST_MAP0 map).clearRegs Reg.PWR_PROFILE (Reg.PWR_PROFILE + 4)
  let s2 := (s1.clearRegs Reg.FUSE_PROG_CTRL (Reg.FUSE_LOCK + 4)).clearMem 0 0x1000000000
  let s3 := { s2 with onceDone := [], badLines := [], dram := { s2.dram with raw := true }, power := { s2.power with profile := 60 } }
  { s3 with rst := { s3.rst with swCount := 0, awCount := 0, dictLevel := none } }

/-- A reset of level 0, 1 or 2 begins or deepens: what it clears (R412). -/
def State.clearLevel (s : State) (level : Nat) : State :=
  let s1 := (s.cutFuse).clearL2
  let s2 := if level ≤ 1 then s1.clearL1 else s1.gateUnused
  if level = 0 then s2.clearL0 else s2

/-! ### Mappings after a reset (R26, R219) -/

/-- The repair log in force retires physical core p. -/
def State.retired (s : State) (p : Nat) : Bool := s.dram.applied.any (fun e => e.kind == 3 && e.unit == p)

/-- A retired core: HALTED with reason RETIRED. -/
def State.haltRetiredCore (s : State) (p : Nat) : State := (s.latchHalt p haltRetired 0 0 0 false).setCoreState p 3 0

/-- The role table and the core states of cluster g as the repair log in force leaves them. -/
def State.mapCluster (s : State) (g : Nat) : State :=
  let out := (List.range 8).filter (fun i => s.retired (physCore g i))
  let bad8 := s.retired (physCore g 8)
  let s1 := (out.zipIdx).foldl (fun t (e : Nat × Nat) =>
    t.setRegN (Reg.CLU_ROLE g e.1) (if e.2 = 0 ∧ bad8 = false then 8 + 0x100 + 0x10000 else 0xF)) s
  let spare := out.isEmpty && !bad8
  let s2 := if bad8 then s1 else s1.setCoreState (physCore g 8) (if spare then 4 else 0) 0
  let s3 := ((List.range 9).filter (fun i => s.retired (physCore g i))).foldl (fun t i => t.haltRetiredCore (physCore g i)) s2
  let s4 := s3.putBit (Reg.CLU_STATUS g) 0 spare
  let lost := out.length - (if bad8 then 0 else 1)
  let s5 := s4.setFld (Reg.CLU_CCCFG g) 4 4 (s.cacheWays g)
  if lost = 0 then s5
  else if lost = 1 then (s5.reduceCluster g).hardMark g
  else (s5.loseCluster g).hardMark (8 + g)

/-- Decode cores and system cache ways that the repair log in force retires. -/
def State.dropUnits (s : State) : State :=
  let s1 := ((s.dram.applied.filter (fun e => e.kind == 4)).map (fun e => e.unit)).foldl State.decoderFaulty s
  s.lostWays.foldl (fun t w => (List.range 8).foldl (fun u i => u.putBit (Reg.SYS_SC_WAYMASK i) w false) t) s1

/-- Mappings and retired units at the release of a reset (R26, R219, R362). -/
def State.applyRepairs (s : State) : State :=
  ((List.range s.clusters).foldl State.mapCluster s).dropUnits.setFld Reg.RAS_REPAIR 0 12 s.dram.applied.length

/-! ### Taking a reset (R420, R422) -/

/-- Level of the reset in progress. -/
def State.rstLevel (s : State) : Nat := s.fld Reg.RST_CAUSE 4 3

/-- A reset is in progress. -/
def State.inReset (s : State) : Bool := s.rst.phase != .none

/-- The phase of the reset. -/
def State.setPhase (s : State) (p : ResetPhase) : State := { s with rst := { s.rst with phase := p } }

/-- L3 resets in progress are absorbed. -/
def State.absorbL3 (s : State) : State :=
  let s1 := ((List.range 4).foldl (fun t i => t.setRegN (Reg.RST_BLK i) 0) s).putBit Reg.RST_STATUS 1 false
  { s1 with rst := { s1.rst with l3 := [] } }

/-- A source takes effect at level 0, 1 or 2 (R422). clk: it came from the reference monitor or a PLL. -/
def State.takeReset (s : State) (src level : Nat) (clk : Bool) : State :=
  let cause := src + level * 16 + (if clk then 128 else 0)
  if s.inReset ∧ s.rstLevel ≤ level then s.sticky Reg.RST_SRCSEEN src
  else
    let seen := if s.inReset then s.regN Reg.RST_SRCSEEN ||| 2 ^ src else 2 ^ src
    let count := if level = 0 then 0 else if s.inReset then s.fld Reg.RST_COUNT 0 16 else min (s.fld Reg.RST_COUNT 0 16 + 1) 0xFFFF
    let s1 := s.clearLevel level
    let s2 := ((s1.setRegN Reg.RST_CAUSE cause).setRegN Reg.RST_SRCSEEN seen).setRegN Reg.RST_COUNT count
    let s3 := if level ≤ 1 then s2.putBit Reg.RST_REGIME 0 false else s2
    s3.absorbL3.setPhase .stretch

/-! ### L3 resets (R417 to R419) -/

/-- No woven timing depends on the data path blocks: WV_STATUS.state is IDLE, LOADED, STOPPED or FAILED. -/
def State.weaveAtRest (s : State) : Bool := s.weaveState == 0 || s.weaveState == 2 || s.weaveState == 5 || s.weaveState == 7

/-- Physical cores of an L3 target: a cluster, a compute die, or a core 128 + p. -/
def targetCores (t : Nat) : List Nat :=
  if 128 ≤ t then [t - 128]
  else if 104 ≤ t then (List.range 36).map (fun i => 36 * (t - 104) + i)
  else if 96 ≤ t then (List.range 9).map (fun i => 9 * (t - 96) + i)
  else []

/-- Bit i of RST_BLK names a target that is marked yes and whose condition holds (R417). -/
def State.l3Accepted (s : State) (i : Nat) : Bool :=
  if 0x20 ≤ i ∧ i ≤ 0x22 ∨ 0x28 ≤ i ∧ i ≤ 0x2C ∨ i = 0x30 ∨ i = 0x31 then s.weaveAtRest
  else if 96 ≤ i ∧ i < 96 + s.clusters ∨ 104 ≤ i ∧ i < 104 + s.dies then
    s.weaveAtRest || (targetCores i).all (fun p => (s.roleOf p).isNone)
  else i == 0x32 || i == 0x38 || i == 0x48 || i == 0x50 || i == 0x51 || (decide (0x58 ≤ i) && decide (i ≤ 0x5A))

/-- Loose jobs resident on core p end (R289). -/
def State.endCoreJobs (s : State) (p : Nat) : State :=
  match s.roleOf p with
  | some l => s.endJobs endCoreFault (fun j => j.core == l && j.resident)
  | none => s

/-- Registers, memories and contexts of core p at their reset values; its state is decided at the end of the hold. -/
def State.resetCore (s : State) (p : Nat) : State :=
  let s1 := s.endCoreJobs p
  let s2 := if s1.coreState p = 4 then s1.putBit (Reg.CLU_STATUS (p / 9)) 0 false else s1
  ((s2.zeroCoreMem p).clearCoreRegs p).setCoreState p 0 0

/-- Cluster g with its nine cores at its reset state; its mapping is built at the end of the hold. -/
def State.resetCluster (s : State) (g : Nat) : State :=
  let s1 := (targetCores (96 + g)).foldl State.resetCore s
  let s2 := ((s1.clearRegs (Reg.cluReg g) (Reg.cluReg (g + 1))).clearMem (cacheBase g) (cacheBase (g + 1))).dropReadCache g
  let s3 := { s2 with wsFilled := Tbl.clear (weightBase g) (weightBase g + 0x500000) s2.wsFilled,
                      pshadow := Tbl.clear (512 * g) (512 * (g + 1)) s2.pshadow, pactive := Tbl.clear (512 * g) (512 * (g + 1)) s2.pactive }
  ({ s3 with weave := { s3.weave with barriers := Tbl.clear (8 * g) (8 * g + 8) s3.weave.barriers, failovers := Tbl.clear g (g + 1) s3.weave.failovers } }).putBit
    (Reg.CLU_STATUS g) 0 false

/-- The L3 target t starts its hold (R418). -/
def State.startL3 (s : State) (t : Nat) : State :=
  let s1 := if 128 ≤ t then s.resetCore (t - 128)
    else if 104 ≤ t then (List.range 4).foldl (fun u c => u.resetCluster (4 * (t - 104) + c)) s
    else if 96 ≤ t then s.resetCluster (t - 96)
    else s.resetBlock t
  let s2 := if t < 128 then s1.putBit (Reg.RST_BLK (t / 32)) (t % 32) true else s1
  ({ s2 with rst := { s2.rst with l3 := t :: s2.rst.l3.erase t } }).putBit Reg.RST_STATUS 1 true

/-- Cluster g comes out of an L3 reset (R219, R26): its roles have cores again. -/
def State.finishCluster (s : State) (g : Nat) : State :=
  let s1 := s.mapCluster g
  let s2 := { s1 with weave := { s1.weave with noCore := s1.weave.noCore.filter (fun l => l / 8 != g) } }
  s2.updateFaultSet g

/-- Core p comes out of an L3 reset (R219). -/
def State.finishCore (s : State) (p : Nat) : State :=
  if s.retired p then s.haltRetiredCore p
  else if (s.roleOf p).isNone && (s.spareSlot (p / 9)).isNone then
    ((s.setCoreState p 4 0).putBit (Reg.CLU_STATUS (p / 9)) 0 true).setFld (Reg.CLU_STATUS (p / 9)) 1 4 (p % 9)
  else s

/-- The L3 target t is released. -/
def State.endL3 (s : State) (t : Nat) : State :=
  let s1 := { s with rst := { s.rst with l3 := s.rst.l3.erase t } }
  let s2 := (if t < 128 then s1.putBit (Reg.RST_BLK (t / 32)) (t % 32) false else s1).putBit Reg.RST_STATUS 1 (!s1.rst.l3.isEmpty)
  if 128 ≤ t then s2.finishCore (t - 128)
  else if 104 ≤ t then (List.range 4).foldl (fun u c => u.finishCluster (4 * (t - 104) + c)) s2
  else if 96 ≤ t then s2.finishCluster (t - 96)
  else if t = 0x20 then s2.dropUnits
  else if t = 0x58 then s2.gpioSettle
  else s2

/-- The register at a, or the window of a core, lies in a target that is held (R418). -/
def State.heldAt (s : State) (a : Nat) : Bool :=
  if s.rst.l3.isEmpty then false
  else if 0x1200000000 ≤ a ∧ a < 0x1210000000 then s.rst.l3.contains ((a - 0x1200000000) / 0x100000)
  else if 0x1000000000 ≤ a ∧ a < 0x1090000000 then
    let p := (a - 0x1000000000) / 0x2000000
    s.rst.l3.any (fun t => (targetCores t).contains p)
  else if 0x10C0000000 ≤ a ∧ a < 0x10C0800000 then
    let g := (a - 0x10C0000000) / 0x100000
    s.rst.l3.contains (96 + g) || s.rst.l3.contains (104 + g / 4)
  else false

/-! ### Sources (R411, R414 to R416) -/

/-- Entry of a source in the fused map (R415). -/
def State.mapEntry (s : State) (src : Nat) : Nat := s.fld Reg.RST_MAP0 (3 * src - 6) 3

/-- Home block of a source in an L3 reset. -/
def homeBlock (src : Nat) : Option Nat := if src = 5 then some 0x50 else if src = 8 then some 0x38 else none

/-- Source 2 or 3 asserts: L0 or L1 in either regime. -/
def State.raiseHard (s : State) (src : Nat) : State := s.takeReset src (if s.mapEntry src = 0 then 0 else 1) false

/-- A source asserts while a reset is in progress: it is recorded. -/
def State.noteSource (s : State) (src : Nat) : State := if s.inReset then s.sticky Reg.RST_SRCSEEN src else s

/-- Source 4 to 9 asserts: in SERVICE its bit in RST_IRQ_STATUS; in START the level of the fused map. -/
def State.raise (s : State) (src : Nat) : State :=
  if s.bit Reg.RST_REGIME 0 then (s.sticky Reg.RST_IRQ_STATUS src).noteSource src
  else
    let e := s.mapEntry src
    if e ≤ 2 then s.takeReset src e false
    else if e = 7 then (s.sticky Reg.RST_SRCSEEN src).sticky Reg.RST_IRQ_STATUS src
    else match (if e = 3 then homeBlock src else none) with
      | some b => if s.inReset then s.noteSource src else s.startL3 b
      | none => s.takeReset src 1 false

/-- POWER_ON_RESET: a monitored supply falls below its threshold (R504). -/
def execPowerOnReset (s : State) : Out := .next (s.takeReset 1 0 false)

/-- SYS_RESET_N_LOW: the pin has been low for 10 µs. While the part drives the pin itself it is no new source (R421); the reset
continues while the pin is low (R420). -/
def execSysResetNLow (s : State) : Out :=
  .next (
    let s1 := { s with rst := { s.rst with pinLow := true } }
    match s.rst.phase with
    | .stretch => s1
    | .held => s1
    | .none => s1.raiseHard 2
    | .release =>
      let s2 := s1.raiseHard 2
      if s2.rst.phase == .release then s2.setPhase .held else s2)

/-- THERMAL_TRIP: a 115 °C comparator trips; the reset is held until every comparator has released (R405, R423). -/
def execThermalTrip (s : State) : Out :=
  .next (
    let s1 := s.raiseHard 3
    { s1 with rst := { s1.rst with phase := .stretch, tripped := true } })

/-- THERMAL_TRIP_RELEASE: every comparator has released; the stretch of R420 begins. -/
def execThermalTripRelease (s : State) : Out := .next { s with rst := { s.rst with tripped := false } }

/-- STEWARD_WATCHDOG_EXPIRY: the count has reached the timeout of RST_SWDT. -/
def execStewardWatchdogExpiry (s : State) : Out :=
  .next (if s.inReset = false ∧ 1000 * s.fld Reg.RST_SWDT 0 16 ≤ s.rst.swCount then
      ({ s with rst := { s.rst with swCount := 0 } }).raise 4
    else s)

/-- APP_WATCHDOG_EXPIRY: the count has reached the timeout of RST_AWDT, which is enabled. -/
def execAppWatchdogExpiry (s : State) : Out :=
  .next (if s.bit Reg.RST_AWDT 16 ∧ 1000 * s.fld Reg.RST_AWDT 0 16 ≤ s.rst.awCount then
      ({ s with rst := { s.rst with awCount := 0 } }).raise 5
    else s)

/-- A write of a kick register: 0x4B49 resets the watchdog's count. -/
def State.kick (s : State) (app : Bool) (v : Nat) : State :=
  if v % 65536 ≠ 0x4B49 then s
  else if app then { s with rst := { s.rst with awCount := 0 } } else { s with rst := { s.rst with swCount := 0 } }

/-- WATCHDOG_KICK. -/
def execWatchdogKick (app : Bool) (v : Word) (s : State) : Out := .next (s.kick app v.toNat)

/-- JTAG_RESET: the TAP's device reset instruction, or TRST_N low. -/
def execJtagReset (s : State) : Out := .next (s.raise 7)

/-- PCIE_HOT_RESET: a hot reset or link-down reset from the host, or PCIE_PERST_N low for 1 µs, which holds the link down (R512). -/
def execPcieHotReset (perst : Bool) (s : State) : Out :=
  .next (
    let s1 := s.raise 8
    if perst then ({ s1 with rst := { s1.rst with perstLow := true } }).setRegN Reg.PCIE_STATUS 0 else s1)

/-- DICT_RESET_REQUEST: RST_SRCREQ.dict. -/
def execDictResetRequest (s : State) : Out := .next (s.raise 6)

/-- SECFAIL_REQUEST: RST_SRCREQ.secfail. -/
def execSecfailRequest (s : State) : Out := .next (s.raise 9)

/-! ### Software resets and the regime (R414, R416, R417, R419) -/

/-- A write to RST_ was refused. -/
def State.rstRej (s : State) : State := s.sticky Reg.RST_STATUS 0

/-- The master may write RST_CTRL, RST_BLKn, RST_CORE and RST_REGIME: the steward or JTAG. -/
def rstMaster (master : Nat) : Bool := master == 0x61 || master == 0x63

/-- A write of RST_CTRL. -/
def State.rstCtrlWrite (s : State) (v master : Nat) : State :=
  if rstMaster master = false then s.rstRej
  else if v.testBit 8 = false then s
  else if v % 4 = 3 then s.rstRej
  else s.takeReset 10 (v % 4) false

/-- SOFTWARE_RESET. -/
def execSoftwareReset (v : Word) (master : BitVec 8) (s : State) : Out := .next (s.rstCtrlWrite v.toNat master.toNat)

/-- A write of RST_BLKn. -/
def State.rstBlkWrite (s : State) (n v master : Nat) : State :=
  if rstMaster master = false then s.rstRej
  else (setBits v 32).foldl (fun t i => if s.l3Accepted (32 * n + i) then t.startL3 (32 * n + i) else t.rstRej) s

/-- L3_BLOCK_RESET. -/
def execL3BlockReset (n : Fin 4) (v : Word) (master : BitVec 8) (s : State) : Out := .next (s.rstBlkWrite n.val v.toNat master.toNat)

/-- A write of RST_CORE. -/
def State.rstCoreWrite (s : State) (v master : Nat) : State :=
  let p := v % 128
  if rstMaster master = false then s.rstRej
  else if v.testBit 8 = false then s
  else if s.hasCore p && s.coreStopped p then s.startL3 (128 + p)
  else s.rstRej

/-- CORE_RESET. -/
def execCoreReset (v : Word) (master : BitVec 8) (s : State) : Out := .next (s.rstCoreWrite v.toNat master.toNat)

/-- A write of RST_REGIME: service is refused after a recovery boot and in test mode. -/
def State.regimeWriteRaw (s : State) (v master : Nat) : State :=
  if rstMaster master = false then s.rstRej
  else if v.testBit 0 then
    (if s.bit Reg.RST_REGIME 1 ∨ s.bit Reg.RST_REGIME 2 then s.rstRej else s.putBit Reg.RST_REGIME 0 true)
  else s.putBit Reg.RST_REGIME 0 false

/-! ### The end of a reset (R420, R423, R425, R431) -/

/-- GOLDEN_N is sampled at the end of the stretch of an L1 reset. -/
def State.sampleGolden (s : State) (golden : Bool) : State :=
  if s.rstLevel = 1 then s.putBit Reg.RST_STRAP 4 golden else s

/-- The reset goes on to its release: an L2 reset releases the data path and the compute dies; the others run the release steps. -/
def State.toRelease (s : State) (golden : Bool) : State :=
  if s.rstLevel = 2 then (s.applyRepairs).setPhase .none else (s.sampleGolden golden).setPhase .release

/-- RESET_STRETCH_END: the 1 ms has passed and the source has released; while the pin is low the reset continues. -/
def execResetStretchEnd (golden : Bool) (s : State) : Out :=
  .next (if s.rst.phase == .stretch && !s.rst.tripped then (if s.rst.pinLow then s.setPhase .held else s.toRelease golden) else s)

/-- SYS_RESET_N_RELEASE: an external agent releases the pin. -/
def execSysResetNRelease (golden : Bool) (s : State) : Out :=
  .next (
    let s1 := { s with rst := { s.rst with pinLow := false } }
    if s.rst.phase == .held then s1.toRelease golden else s1)

/-- L3_RESET_END: the hold of an L3 target ends. -/
def execL3ResetEnd (t : Fin 200) (s : State) : Out := .next (if s.rst.l3.contains t.val then s.endL3 t.val else s)

/-! ### Clocks (R426, R429) -/

/-- REFERENCE_CLOCK_LOSS. -/
def execReferenceClockLoss (s : State) : Out := .next (s.takeReset 1 0 true)

/-- PLL_LOCK_LOSS: a cluster, a die, or the whole part. -/
def execPllLockLoss (p : Pll) (s : State) : Out :=
  .next (match p with
    | .cluster g =>
      if g.val < s.clusters then
        ((((s.sticky Reg.CLK_IRQ_STATUS g.val).putBit Reg.CLK_STATUS (8 + g.val) false).loseCluster g.val).hardMark (8 + g.val))
      else s
    | .die d =>
      if d.val < s.dies then
        ((((s.sticky Reg.CLK_IRQ_STATUS (8 + d.val)).putBit Reg.CLK_STATUS (6 + d.val) false).loseDie d.val).hardMark (16 + d.val))
      else s
    | .io => s.takeReset 1 0 true)

end Sys2Proof.Machine
end

