-- ==== Sys2Proof/Machine/SecOps.lean ====
section
/-! DEFINITION. Images and manifests, measurements, keys, attestation, fuses and the live handover
(17_boot_and_firmware.md R433 to R452). -/

namespace Sys2Proof.Machine

/-- A write to SEC_ was refused. -/
def State.secRej (s : State) : State := s.sticky Reg.SEC_STATUS 2

/-! ### Manifests (R440) -/

/-- The little-endian field of n bytes at an offset of a byte string. -/
def leAt (m : List Nat) (off n : Nat) : Nat := leVal ((m.drop off).take n)

/-- n bytes at an offset are zero. -/
def zerosAt (m : List Nat) (off n : Nat) : Bool := ((m.drop off).take n).all (fun b => b == 0)

/-- Fields of a manifest. -/
def manType (m : List Nat) : Nat := m.getD 6 0
def manKey (m : List Nat) : Nat := m.getD 7 0
def manSvn (m : List Nat) : Nat := leAt m 8 2
def manVersion (m : List Nat) : Nat := leAt m 12 4
def manBlocks (m : List Nat) : Nat := leAt m 20 4
def manSize (m : List Nat) : Nat := leAt m 24 8
def manLoad (m : List Nat) : Nat := leAt m 32 8
def manEntry (m : List Nat) : Nat := leAt m 40 8

/-- Bytes of a manifest. -/
def manLength (m : List Nat) : Nat := 352 + 48 * manBlocks m

/-- The signed part of a manifest. -/
def manSigned (m : List Nat) : List Nat := m.take (256 + 48 * manBlocks m)

/-- Its digest. -/
def manDigest (m : List Nat) : List Nat := sha384 (manSigned m)

/-- Hash of block i. -/
def manHash (m : List Nat) (i : Nat) : List Nat := (m.drop (256 + 48 * i)).take 48

/-- Fused hash of key k. -/
def State.keyHash (s : State) (k : Nat) : List Nat := s.regBytes (Reg.FUSE_KEYHASH (16 * k)) 48

/-- The key that a manifest names is fused and not revoked; in lifecycle DEV the hash of key 3 serves too, revoked or not. -/
def State.keyOk (s : State) (m : List Nat) : Bool :=
  let h := sha384 ((m.drop 48).take 96)
  let k := manKey m
  (decide (k < 4) && h == s.keyHash k && !s.bit Reg.FUSE_KEYREV k) || (s.fld Reg.FUSE_LIFECYCLE 0 2 == 1 && h == s.keyHash 3)

/-- A manifest is accepted (R440); its block count and size agree, and a steward image is at most 112 blocks. -/
def State.manifestOk (s : State) (m : List Nat) : Bool :=
  let b := manBlocks m
  decide (352 + 48 * b ≤ m.length) && leAt m 0 4 == 0x4E414D4B && leAt m 4 2 == 1 && decide (1 ≤ manType m) && decide (manType m ≤ 4) &&
  zerosAt m 10 2 && zerosAt m 18 2 && zerosAt m 144 112 && leAt m 16 2 == s.fld Reg.SYS_PARTID 0 16 &&
  decide (1 ≤ b) && decide (b ≤ 1024) && decide (65536 * (b - 1) < manSize m) && decide (manSize m ≤ 65536 * b) &&
  (manType m != 1 || (decide (b ≤ 112) && manLoad m == 0)) && s.keyOk m &&
  p384Verify ((m.drop 48).take 96) (manDigest m) ((m.drop (256 + 48 * b)).take 96)

/-- Block i of a payload. -/
def blockOf (m payload : List Nat) (i : Nat) : List Nat := ((payload.take (manSize m)).drop (65536 * i)).take 65536

/-- Every block of a payload matches its hash. -/
def blocksOk (m payload : List Nat) : Bool :=
  decide (manSize m ≤ payload.length) && (List.range (manBlocks m)).all (fun i => sha384 (blockOf m payload i) == manHash m i)

/-- An image passes R440. -/
def State.imageOk (s : State) (im : FwImage) : Bool := s.manifestOk im.manifest && blocksOk im.manifest im.payload

/-- The next 4 KiB boundary. -/
def up4k (n : Nat) : Nat := (n + 4095) / 4096 * 4096

/-- The images of a slot, at most n: each manifest on a 4 KiB boundary, its payload on the next one after it (R437). -/
def slotImages : Nat → List Nat → List FwImage
  | 0, _ => []
  | n + 1, bs =>
    if bs.length < 352 then []
    else
      let p := bs.drop (up4k (manLength bs))
      { manifest := bs.take (manLength bs), payload := p.take (manSize bs) } :: slotImages n (p.drop (up4k (manSize bs)))

/-! ### Measurements and keys (R442, R443, R445) -/

/-- A write of SEC_EXTCTRL. -/
def State.extWrite (s : State) (v master : Nat) : State :=
  if master ≠ 0x61 then s.secRej
  else if v.testBit 8 = false then s
  else if v % 8 < 2 then s.secRej
  else s.extend (v % 8) (s.regBytes (Reg.SEC_EXTDATA 0) 48)

/-- MEASUREMENT_EXTEND. -/
def execMeasurementExtend (v : Word) (master : BitVec 8) (s : State) : Out := .next (s.extWrite v.toNat master.toNat)

/-- The input keying material: the device secret, zeros in lifecycle RMA (R447). -/
def State.ikm (s : State) : List Nat := if s.fld Reg.FUSE_LIFECYCLE 0 2 = 3 then List.replicate 48 0 else Config.deviceSecret

/-- The salt of every derivation: the string KYTIA-HERDO in ASCII. -/
def kdfSalt : List Nat := [0x4B, 0x59, 0x54, 0x49, 0x41, 0x2D, 0x48, 0x45, 0x52, 0x44, 0x4F]

/-- len bytes derived with an info string. -/
def State.derive (s : State) (info : List Nat) (len : Nat) : List Nat := hkdfExpand (hkdfExtract kdfSalt s.ikm) info len

/-- A write of SEC_KDF_CTRL. -/
def State.kdfWrite (s : State) (v master : Nat) : State :=
  let svn := field v 16 16
  if master ≠ 0x61 then (s.sticky Reg.SEC_STATUS 3).secRej
  else if s.fld Reg.SEC_SVN 0 16 < svn then s.sticky Reg.SEC_STATUS 3
  else s.setRegBytes (Reg.SEC_KEY 0) (s.derive ([v % 256, field v 8 8] ++ leBytes 2 svn) 48)

/-- KEY_DERIVE. -/
def execKeyDerive (v : Word) (master : BitVec 8) (s : State) : Out := .next (s.kdfWrite v.toNat master.toNat)

/-- The identity public key (R445). -/
def State.identity (s : State) : List Nat :=
  p384Public (beVal (s.derive [2, 0] 64) % (p384Order - 1) + 1)

/-! ### Attestation (R446) -/

/-- A write of SEC_ATT_CTRL. -/
def State.attWrite (s : State) (v master : Nat) : State :=
  if master ≠ 0x61 then s.secRej
  else if v.testBit 0 = false then s
  else if s.boot.attesting then s.secRej
  else ({ s with boot := { s.boot with attesting := true } }).putBit Reg.SEC_STATUS 0 true

/-- ATTEST. -/
def execAttest (v : Word) (master : BitVec 8) (s : State) : Out := .next (s.attWrite v.toNat master.toNat)

/-- Bytes 0 to 543 of the report. -/
def State.attBody (s : State) : List Nat :=
  leBytes 4 0x53545441 ++ leBytes 2 1 ++ [s.fld Reg.FUSE_LIFECYCLE 0 2, (if s.bit Reg.RST_REGIME 1 then 1 else 0) + (if s.boot.handed then 2 else 0)] ++
  leBytes 4 (s.regN Reg.SYS_PARTID) ++ leBytes 4 0 ++ s.regBytes (Reg.SEC_ATT_NONCE 0) 32 ++ leBytes 8 s.time ++ leBytes 8 0 ++
  sha384 (s.regBytes (Reg.SEC_IDPUB 0) 96) ++ (List.range 8).flatMap (fun i => s.regBytes (Reg.SEC_MEAS (16 * i)) 48) ++
  s.boot.svns.flatMap (leBytes 2) ++ s.regBytes Reg.SYS_FWVER 16 ++ List.replicate 24 0

/-- ATTEST_DONE: the report, with its signature, is written at SEC_ATT_ADDR. -/
def execAttestDone (s : State) : Out :=
  .next (if s.boot.attesting then
      let r := s.freeBytes 96
      let report := r.2.attBody ++ r.1
      let a := r.2.reg64 Reg.SEC_ATT_ADDR_LO % 2 ^ 40
      let s1 := { r.2 with boot := { r.2.boot with attesting := false, report := some report } }
      let s2 := match s1.place a 640 with
        | .dram h => s1.setBytes h report
        | .window h => s1.setBytes h report
        | .core _ _ h => s1.setBytes h report
        | _ => s1
      (s2.putBit Reg.SEC_STATUS 0 false).sticky Reg.SEC_STATUS 1
    else s)

/-! ### Fuses (R448) -/

/-- The bit address lies in a field that may be programmed in the part's lifecycle (Table, Programmable fuse fields). -/
def State.fuseField (s : State) (bit : Nat) : Bool :=
  let off := bit / 32 * 4
  let life := s.fld Reg.FUSE_LIFECYCLE 0 2
  (life == 1 || life == 2) && (off == 4 || off == 8 || off == 0xC || (decide (0x200 ≤ off) && decide (off < 0x300)))

/-- A write of FUSE_PROG_CTRL. vpp: VPP_FUSE is in range. -/
def State.fuseWrite (s : State) (v master : Nat) (vpp : Bool) : State :=
  let bit := v % 8192
  if v.testBit 31 = false then s
  else if rstMaster master = false ∨ s.bit Reg.FUSE_LOCK 0 = true ∨ s.fuseField bit = false ∨ s.boot.fuseBusy.isSome then s.sticky Reg.FUSE_PROG_STAT 1
  else if vpp = false then s.sticky Reg.FUSE_PROG_STAT 2
  else ({ s with boot := { s.boot with fuseBusy := some bit } }).putBit Reg.FUSE_PROG_STAT 0 true

/-- FUSE_PROGRAM. -/
def execFuseProgram (v : Word) (master : BitVec 8) (vpp : Bool) (s : State) : Out := .next (s.fuseWrite v.toNat master.toNat vpp)

/-- FUSE_PROGRAM_DONE: the bit is programmed in all three copies. -/
def execFuseProgramDone (s : State) : Out :=
  .next (match s.boot.fuseBusy with
    | none => s
    | some b => ({ s with boot := { s.boot with fuseBusy := none, fuses := Tbl.set (fun _ => 0) s.boot.fuses b 3 } }).putBit Reg.FUSE_PROG_STAT 0 false)

/-- Fuse sensing at an L0 reset: the majority of the three copies reaches the shadows, and bits that differ are counted (R363). -/
def State.senseFuses (s : State) : State :=
  let n := (s.boot.fuses.filter (fun e => e.2 == 1 || e.2 == 2)).length
  let s1 := s.boot.fuses.foldl (fun t e => if 2 ≤ e.2 then t.sticky (Reg.blk 0x04 + e.1 / 32 * 4) (e.1 % 32) else t) s
  let s2 := s1.setRegN Reg.RAS_FUSEDIS n
  if n = 0 then s2 else s2.logEvent 0x50F 1 0x49 n 0

/-! ### The live handover (R449, R450, R473) -/

/-- SEC_HANDOVER.state. -/
def State.handState (s : State) : Nat := s.fld Reg.SEC_HANDOVER 2 2

/-- Half from which the steward runs, and the manifest of a half. -/
def State.half (s : State) : Nat := s.fld Reg.SEC_HANDOVER 5 1
def State.halfManifest (s : State) (h : Nat) : List Nat := if h = 0 then s.boot.half0 else s.boot.half1

/-- Home of a half in the window. -/
def halfBase (h : Nat) : Nat := windowBase + h * 0x700000

/-- Places an image in a half. -/
def State.putHalf (s : State) (h : Nat) (im : FwImage) : State :=
  let s1 := s.setBytes (halfBase h) im.payload
  if h = 0 then { s1 with boot := { s1.boot with half0 := im.manifest } } else { s1 with boot := { s1.boot with half1 := im.manifest } }

/-- The image in a half passes R440. -/
def State.halfOk (s : State) (h : Nat) : Bool :=
  let m := s.halfManifest h
  s.manifestOk m && manType m == 1 && blocksOk m (s.bytes (halfBase h) (manSize m))

/-- The security block refuses a request: a handover is in progress, or the weave is LOADING. -/
def State.handRefused (s : State) : Bool := s.handState == 1 || s.handState == 2 || s.weaveState == 1

/-- The steward takes a manifest's security version and version as its own. -/
def State.runHalf (s : State) (h : Nat) : State :=
  let m := s.halfManifest h
  let s1 := ((s.setFld Reg.SEC_SVN 0 16 (manSvn m)).setRegN Reg.SYS_FWVER (manVersion m)).setFld Reg.SEC_HANDOVER 5 1 h
  { s1 with boot := { s1.boot with svns := manSvn m :: s1.boot.svns.drop 1 } }

/-- The confirmed slot becomes active, and nothing is pending (R439). -/
def State.confirmSlot (s : State) : State :=
  match s.boot.pending with
  | some p => { s with boot := { s.boot with active := p, pending := none, tries := 0 } }
  | none => s

/-- A write to a register of the security block that a row of its own does not describe. -/
def State.secPlain (s : State) (a v master : Nat) : State :=
  if Reg.SEC_EXTDATA 0 ≤ a ∧ a < Reg.SEC_EXTDATA 12 then (if master = 0x61 then s.setRegN a v else s.secRej)
  else s.plainWrite a v master

end Sys2Proof.Machine
end

