-- ==== Sys2Proof/Machine/Handover.lean ====
section
/-! DEFINITION. Messages of the object dictionary on their way out (18_object_dictionary.md R457) and the live handover of the
steward (17_boot_and_firmware.md R449, R450; R473). -/

namespace Sys2Proof.Machine

/-! ### Messages (R457) -/

/-- A message: service, request, index, subindex, flags, arg and data. -/
def mkMsg (service req index sub flags arg : Nat) (data : List Nat) : List Nat :=
  [1, service] ++ leBytes 2 req ++ leBytes 2 index ++ [sub, flags] ++ leBytes 4 arg ++ leBytes 2 data.length ++ [0, 0] ++ data

/-- An ABORT. -/
def abortMsg (req index sub code : Nat) : List Nat := mkMsg 5 req index sub 0 code []

/-- The steward sends a message on session k: through the mailbox, or on the network. -/
def State.sendTo (s : State) (k : Nat) (m : List Nat) : State :=
  if k = 8 then s.mailboxSend m else { s with dict := { s.dict with sent := s.dict.sent ++ [(k, m)] } }

/-- Abort code of an interrupted service. -/
def abortInterrupted : Nat := 0x08000024

/-- Every open segmented transfer of session k ends with ABORT 0x0800_0024 (R473). -/
def State.abortTransfers (s : State) (k : Nat) : State :=
  match s.session k with
  | none => s
  | some q => q.xfers.foldl (fun t x => t.sendTo k (abortMsg x.req x.index x.sub abortInterrupted)) (s.setSession k (some { q with xfers := [] }))

/-! ### The handover record (Table, Handover record) -/

/-- Home of the handover area. -/
def handoverBase : Nat := windowBase + 0xE00000

/-- Bytes of a free value of n bytes that the steward chooses: an address or a length that the specification does not state. -/
def State.freeWord (s : State) (n : Nat) : List Nat × State := s.freeBytes n

/-- The record, written by the old image. -/
def State.writeRecord (s : State) : State :=
  let f := s.freeWord 44
  let img := fun (o : Option Image) => match o with | some im => im.addr | none => 0
  let body := leBytes 4 0x444E484B ++ leBytes 2 1 ++ leBytes 2 0 ++ leBytes 4 (s.regN Reg.SYS_FWVER) ++
    leBytes 4 (manVersion (s.halfManifest (1 - s.half))) ++ leBytes 4 (s.regN Reg.WV_TICK) ++ leBytes 4 (s.events + 1) ++
    leBytes 4 (s.regN Reg.WV_STATUS) ++ leBytes 4 (s.regN Reg.WV_VARIANT) ++ leBytes 8 (img s.weave.active) ++ leBytes 8 (img s.weave.standby) ++
    f.1 ++ List.replicate 32 0 |>.take 124
  f.2.setBytes handoverBase (body ++ leBytes 4 (crc32c body))

/-! ### The handover (R449, R450) -/

/-- STW_STATUS.paused is set between steps 3 and 5 (R499). -/
def State.showPaused (s : State) : State := s.putBit Reg.STW_STATUS 3 (s.handState == 1 || s.handState == 2)

/-- SEC_HANDOVER.request is set: the security block refuses it, or the request is pending. -/
def State.handRequest (s : State) : State :=
  if s.handRefused then s.sticky Reg.SEC_HANDOVER 4 else ((s.putBit Reg.SEC_HANDOVER 0 true).setFld Reg.SEC_HANDOVER 2 2 1).showPaused

/-- A handover leaves SEC_HANDOVER in a state, its request and confirm bits clear. -/
def State.handEnd (s : State) (st : Nat) : State := ((s.setFld Reg.SEC_HANDOVER 0 2 0).setFld Reg.SEC_HANDOVER 2 2 st).showPaused

/-- HANDOVER_REQUEST: the old image aborts its segmented transfers, writes the record and sets the request. -/
def execHandoverRequest (s : State) : Out :=
  .next (if s.handRefused then s.handRequest else (((List.range 9).foldl State.abortTransfers { s with dict := { s.dict with sent := [] } }).writeRecord).handRequest)

/-- HANDOVER_RESTART: the security block checks the standby half, extends SEC_MEAS7 and restarts the steward there. -/
def execHandoverRestart (s : State) : Out :=
  .next (if s.handState ≠ 1 then s
    else
      let h := 1 - s.half
      if s.halfOk h then
        let s1 := ((s.extend 7 (manDigest (s.halfManifest h))).runHalf h).setFld Reg.SEC_HANDOVER 2 2 2
        ({ s1 with boot := { s1.boot with handed := true } }).showPaused
      else (s.sticky Reg.SEC_HANDOVER 4).handEnd 0)

/-- SEC_HANDOVER.confirm is set: the handover is complete, and the new image confirms the pending slot. -/
def State.handConfirm (s : State) : State :=
  if s.handState ≠ 2 then s else ((s.handEnd 0).confirmSlot).logEvent 0x606 0 0x51 0 0

/-- HANDOVER_CONFIRM. -/
def execHandoverConfirm (s : State) : Out := .next s.handConfirm

/-- HANDOVER_TIMEOUT: 10 s without confirm: the steward restarts from the old half, which must still pass R440. -/
def execHandoverTimeout (s : State) : Out :=
  .next (if s.handState = 2 ∧ s.halfOk (1 - s.half) = true then ((s.runHalf (1 - s.half)).handEnd 3).logEvent 0x606 0 0x51 3 0 else s)

/-- A write of SEC_HANDOVER. -/
def State.handWrite (s : State) (v master : Nat) : State :=
  if master ≠ 0x61 then s.secRej
  else
    let s1 := if v.testBit 4 then s.putBit Reg.SEC_HANDOVER 4 false else s
    let s2 := if v.testBit 0 then s1.handRequest else s1
    if v.testBit 1 then s2.handConfirm else s2

/-! ### The regime (R414, R439) -/

/-- A write of RST_REGIME: entering SERVICE after a boot from the pending slot confirms it. -/
def State.regimeWrite (s : State) (v master : Nat) : State :=
  let t := s.regimeWriteRaw v master
  if t.bit Reg.RST_REGIME 0 && !s.bit Reg.RST_REGIME 0 && s.bit Reg.SEC_BOOTINFO 12 then t.confirmSlot else t

/-- REGIME_WRITE. -/
def execRegimeWrite (v : Word) (master : BitVec 8) (s : State) : Out := .next (s.regimeWrite v.toNat master.toNat)

end Sys2Proof.Machine
end

