-- ==== Sys2Proof/Machine/Stored.lean ====
section
/-! DEFINITION. Dictionary records in NVM (18_object_dictionary.md R470, R471, Table, Dictionary record; 14 Table, Redundant copies
that differ). -/

namespace Sys2Proof.Machine

/-- Home of dictionary record slot i (Table, NVM layout). -/
def dictSlot (i : Nat) : Nat := 0x1401030000 + i * 0x10000

/-- A dictionary record starts at home a: magic, a length from 32 to a limit, and the CRC over every byte but its own. -/
def State.recordAt (s : State) (a most : Nat) : Option (List Nat) :=
  let n := s.le (a + 8) 4
  if s.le a 4 = 0x4349444B ∧ 32 ≤ n ∧ n ≤ most then
    let bs := s.bytes a n
    if crc32c (bs.take 28 ++ bs.drop 32) = s.le (a + 28) 4 then some bs else none
  else none

/-- Generation of a record. -/
def recordGen (r : List Nat) : Nat := leVal ((r.drop 4).take 4)

/-- The record in force among copies: the highest generation found, unless two valid copies of it differ; and whether they do. -/
def newestRecord (rs : List (List Nat)) : Option (List Nat) × Bool :=
  let top := rs.foldl (fun n r => max n (recordGen r)) 0
  match rs.filter (fun r => recordGen r == top) with
  | [] => (none, false)
  | r :: more => if more.all (fun q => q == r) then (some r, false) else (none, true)

/-- The stored values in force, and whether two copies of the newest generation differ (R471). -/
def State.storedRecord (s : State) : Option (List Nat) × Bool :=
  newestRecord ((List.range 31).filterMap (fun i => s.recordAt (dictSlot i) 65536))

/-- The record of the ONCE objects: two halves of 32 KiB of slot 31. -/
def State.onceRecord (s : State) : Option (List Nat) × Bool :=
  newestRecord ((List.range 2).filterMap (fun i => s.recordAt (dictSlot 31 + i * 0x8000) 32768))

/-- An entry of a record: index, subindex, type code and value. -/
structure StoredValue where
  index : Nat
  sub : Nat
  type : Nat
  value : List Nat
  deriving DecidableEq, Repr

/-- At most n entries of the bytes that follow a record's header. -/
def recordEntries : Nat → List Nat → List StoredValue
  | 0, _ => []
  | n + 1, bs =>
    if bs.length < 8 then []
    else
      let len := leVal ((bs.drop 4).take 2)
      { index := leVal (bs.take 2), sub := bs.getD 2 0, type := bs.getD 3 0, value := (bs.drop 8).take len } ::
        recordEntries n (bs.drop (8 + (len + 3) / 4 * 4))

/-- The entries of a record. -/
def entriesOf (r : List Nat) : List StoredValue := recordEntries (leVal ((r.drop 12).take 4)) (r.drop 32)

/-- The stored value of an object in a record. -/
def valueIn (r : Option (List Nat)) (index sub : Nat) : Option StoredValue :=
  match r with
  | some bs => (entriesOf bs).find? (fun e => e.index == index && e.sub == sub)
  | none => none

/-- An entry as a record holds it. -/
def entryBytes (e : StoredValue) : List Nat :=
  leBytes 2 e.index ++ [e.sub, e.type] ++ leBytes 2 e.value.length ++ [0, 0] ++ e.value ++ List.replicate ((4 - e.value.length % 4) % 4) 0

/-- A record of entries. -/
def makeRecord (gen fwver time : Nat) (es : List StoredValue) : List Nat :=
  let body := es.flatMap entryBytes
  let head := leBytes 4 0x4349444B ++ leBytes 4 gen ++ leBytes 4 (32 + body.length) ++ leBytes 4 es.length ++ leBytes 4 fwver ++ leBytes 8 time
  head ++ leBytes 4 (crc32c (head ++ body)) ++ body

/-- A record under another generation. -/
def regenRecord (gen : Nat) (r : List Nat) : List Nat :=
  let head := r.take 4 ++ leBytes 4 gen ++ (r.drop 8).take 20
  head ++ leBytes 4 (crc32c (head ++ r.drop 32)) ++ r.drop 32

end Sys2Proof.Machine
end

