-- ==== Sys2Proof/Machine/BootRom.lean ====
section
/-! DEFINITION. The release from reset, the boot ROM and the first steps of the steward firmware (16_reset_clocks_straps.md R425,
R430, R431; 17_boot_and_firmware.md R432 to R438; 13 R338, R339). -/

namespace Sys2Proof.Machine

/-! ### The hash masks (13 R338, R339) -/

/-- A hash mask obeys R338 among bits [31:0]: its own bit, no other channel or bank bit, none of [6:0]. -/
def maskOk (own v : Nat) : Bool :=
  v % 128 == 0 && (setBits v 32).all (fun i => i == own || !((decide (9 ≤ i) && decide (i ≤ 12)) || (decide (15 ≤ i) && decide (i ≤ 18)))) && v.testBit own

/-- Own bit of mask k: channel masks 0 to 3, bank masks 4 to 7. -/
def maskBit (k : Nat) : Nat := if k < 4 then 9 + k else 15 + (k - 4)

/-- A write of a hash mask register. A mask that breaks R338, or any write while DRAM is ready or busy, is ignored and sets
cfg_rej. -/
def State.maskRegWrite (s : State) (a v master : Nat) : State :=
  if s.locked a then s.lockViolation a master
  else
    let k := (a - Reg.DMC_CHHASH0) / 4
    if (k < 8 ∧ maskOk (maskBit k) v = false) ∨ s.bit Reg.DMC_STATUS 0 ∨ s.bit Reg.DMC_STATUS 1 then s.sticky Reg.DMC_STAT 0
    else s.plainWrite a v master

/-- The value in force of an object that no register holds, none while it has its default. -/
def State.objVal (s : State) (index sub : Nat) : Option (List Nat) := Tbl.get (fun _ => none) s.dict.vals (256 * index + sub)

/-- Sets it. -/
def State.setObjVal (s : State) (index sub : Nat) (v : List Nat) : State :=
  { s with dict := { s.dict with vals := Tbl.set (fun _ => none) s.dict.vals (256 * index + sub) (some v) } }

/-- Mask k as the next initialisation applies it: object 0x2010:(k + 1), or its default. -/
def State.nextMask (s : State) (k : Nat) : Nat :=
  match s.objVal 0x2010 (k + 1) with
  | some v => leVal v
  | none => 2 ^ maskBit k

/-- A mask that the registers can hold. -/
def maskValueOk (k v : Nat) : Bool := decide (v < 2 ^ 40) && maskOk (maskBit k) (v % 2 ^ 32)

/-- The stored value of mask k comes into force; a value that R338 refuses is logged (R470). -/
def State.takeMask (s : State) (rec : Option (List Nat)) (k : Nat) : State :=
  match valueIn rec 0x2010 (k + 1) with
  | none => s
  | some e =>
    if e.type ≠ 5 ∨ e.value.length ≠ 8 then s
    else if maskValueOk k (leVal e.value) then s.setObjVal 0x2010 (k + 1) e.value
    else s.logEvent 0x60A 2 0x51 (0x2010 + (k + 1) * 65536) 0

/-- The steward writes the masks of the next initialisation into the registers. -/
def State.putMasks (s : State) : State :=
  let byte := fun (k : Nat) => s.nextMask k / 2 ^ 32 % 256
  let hi := fun (b : Nat) => byte b + byte (b + 1) * 256 + byte (b + 2) * 65536 + byte (b + 3) * 2 ^ 24
  let s1 := (List.range 8).foldl (fun t k => t.maskRegWrite (Reg.DMC_CHHASH0 + 4 * k) (s.nextMask k % 2 ^ 32) 0x61) s
  (s1.maskRegWrite Reg.DMC_CHHASH_HI (hi 0) 0x61).maskRegWrite Reg.DMC_BKHASH_HI (hi 4) 0x61

/-! ### The end of the boot ROM (R432) -/

/-- Slot codes: 0 A, 1 B, 2 golden, 3 none. How the boot ended: source, slot, pending slot, and sources and slots tried before. -/
structure BootEnd where
  source : Nat
  slot : Nat
  pending : Bool
  tried : Nat
  deriving DecidableEq, Repr

/-- The steward firmware starts: it reads the stored values, writes the masks and starts DRAM initialisation. The images that follow
its own wait until DRAM is ready. -/
def State.stewardStart (s : State) (rest : List FwImage) : State :=
  let rec_ := s.storedRecord
  let s1 := if rec_.2 then s.logEvent 0x510 2 0x51 0 0 else s
  let s2 := ((List.range 8).foldl (fun t k => t.takeMask rec_.1 k) s1).putMasks
  let fill := s.rstLevel == 0 || s2.dram.layout != some ((List.range 8).map s2.nextMask)
  let s3 := s2.dmcCtrl (if fill then 3 else 1)
  { s3 with boot := { s3.boot with rest := some rest } }

/-- The boot ROM accepts a steward image, measures it and jumps to it. -/
def State.romDone (s : State) (e : BootEnd) (im : FwImage) (rest : List FwImage) : State :=
  let golden := e.slot == 2
  let s1 := ((s.putHalf 0 im).extend 0 Config.bootRomDigest).extend 1 (manDigest im.manifest)
  let s2 := s1.runHalf 0
  let info := e.source + e.slot * 8 + (if golden then 32 else 0) + s.fld Reg.RST_STRAP 0 2 * 64 + min e.tried 15 * 256 + (if e.pending then 4096 else 0)
  let s3 := (s2.setRegN Reg.SEC_BOOTINFO info).putBit Reg.RST_REGIME 1 golden
  ({ s3 with boot := { s3.boot with run := none } }).stewardStart rest

/-! ### Boot sources (R434 to R438) -/

/-- Codes of the order that BOOTSEL selects: up to the first 0, reserved codes skipped. -/
def State.bootOrder (s : State) : List Nat :=
  let b := s.fld Reg.RST_STRAP 0 2
  let v := s.fld (if b < 2 then Reg.FUSE_BOOTORD0 else Reg.FUSE_BOOTORD1) (12 * (b % 2)) 12
  (((List.range 4).map (fun j => field v (3 * j) 3)).takeWhile (fun c => c != 0)).filter (fun c => decide (c ≤ 4))

/-- Slots of a flash source in the order in which the boot ROM tries them, each with whether it is tried as the pending slot. -/
def State.slotOrder (s : State) : List (Nat × Bool) :=
  if s.bit Reg.RST_STRAP 4 = false then [(2, false)]
  else
    let p := match s.boot.pending with
      | some p => if s.boot.tries < 3 then [(p, true)] else []
      | none => []
    p ++ [(s.boot.active, false), (1 - s.boot.active, false), (2, false)]

/-- The bytes of a slot: those that the steward has written, or what the device holds. -/
def State.slotBytes (s : State) (source slot : Nat) (f : FlashMedia) : Option (List Nat) :=
  match Tbl.find (4 * source + slot) s.boot.slots with
  | some bs => some bs
  | none => (if slot = 0 then f.a else if slot = 1 then f.b else f.golden).map (fun l => l.map (fun b => b.toNat))

/-- A steward image of a slot that passes its checks, and the images after it. -/
def State.stewardImage (s : State) (bs : List Nat) : Option (FwImage × List FwImage) :=
  match slotImages 4 bs with
  | im :: rest => if s.imageOk im && manType im.manifest == 1 then some (im, rest) else none
  | [] => none

/-- The slots of a flash source in turn; a pending slot that is tried costs a try. Answers the state with the slots tried, and the
boot if one succeeded. -/
def State.trySlots (s : State) (source tried : Nat) (f : FlashMedia) : List (Nat × Bool) → State × Nat × Option State
  | [] => (s, tried, none)
  | (slot, pend) :: more =>
    let s1 := if pend then { s with boot := { s.boot with tries := s.boot.tries + 1 } } else s
    match (s1.slotBytes source slot f).bind s1.stewardImage with
    | some (im, rest) => (s1, tried, some (s1.romDone { source := source, slot := slot, pending := pend, tried := tried } im rest))
    | none => s1.trySlots source (tried + 1) f more

/-- The images that the boot server delivers after the steward's. -/
def netImages (m : NetMedia) : List FwImage :=
  [m.thr, m.app, m.hdg].flatMap (fun o => match o with
    | some bs => slotImages 1 (bs.map (fun b => b.toNat))
    | none => [])

/-- The boot ROM goes through boot sources. The PCIe source waits for the host; when every source has failed, the boot ROM waits. -/
def State.bootFrom (s : State) (m : BootMedia) (tried : Nat) : List Nat → State
  | [] => { s with boot := { s.boot with run := some { sources := [], tried := tried, manifest := [], blocks := 0, failed := true } } }
  | c :: more =>
    let golden := !s.bit Reg.RST_STRAP 4
    if c = 1 ∨ c = 2 then
      match (if c = 1 then m.spi else m.emmc) with
      | some f =>
        let r := s.trySlots c tried f s.slotOrder
        match r.2.2 with
        | some t => t
        | none => r.1.bootFrom m r.2.1 more
      | none => s.bootFrom m (tried + 1) more
    else if c = 3 then
      match (if golden then none else m.net.bind (fun n => (s.stewardImage (n.fw.map (fun b => b.toNat))).map (fun i => (i, n)))) with
      | some (i, n) => s.romDone { source := 3, slot := 3, pending := false, tried := tried } i.1 (netImages n)
      | none => s.bootFrom m (tried + 1) more
    else if golden then s.bootFrom m (tried + 1) more
    else ({ s with boot := { s.boot with run := some { sources := c :: more, tried := tried, manifest := [], blocks := 0, failed := false } } }).setRegN
      Reg.SEC_PUSHSTAT 1

/-! ### The PCIe source (R436) -/

/-- The boot ROM serves the PCIe source. -/
def State.servesPcie (s : State) : Bool := s.boot.run.isSome && s.bit Reg.SEC_PUSHSTAT 0

/-- A pushed manifest or block fails: the source has failed. -/
def State.pushFailed (s : State) (b : BootRun) : State :=
  let more := b.sources.drop 1
  ({ s with boot := { s.boot with run := some { sources := more, tried := b.tried + 1, manifest := [], blocks := 0, failed := more.isEmpty } } }).setFld
    Reg.SEC_PUSHSTAT 0 3 4

/-- A pushed steward manifest, at window offset 0xE0_0000. -/
def State.pushManifest (s : State) (b : BootRun) : State :=
  let m := s.bytes handoverBase (352 + 48 * min (s.le (handoverBase + 20) 4) 1024)
  if s.manifestOk m && manType m == 1 then { s with boot := { s.boot with run := some { b with manifest := m } } } else s.pushFailed b

/-- Pushed block i, in half 0. -/
def State.pushBlock (s : State) (b : BootRun) (i : Nat) : State :=
  let m := b.manifest
  let payload := s.bytes (halfBase 0) (manSize m)
  if sha384 (blockOf m payload i) == manHash m i then
    let s1 := s.setFld Reg.SEC_PUSHSTAT 16 12 (i + 1)
    if i + 1 = manBlocks m then
      (s1.setFld Reg.SEC_PUSHSTAT 0 3 2).romDone { source := 4, slot := 3, pending := false, tried := b.tried } { manifest := m, payload := payload } []
    else { s1 with boot := { s1.boot with run := some { b with blocks := i + 1 } } }
  else s.pushFailed b

/-- A write of SEC_PUSHDB. An index other than the one expected next changes nothing. -/
def State.pushWrite (s : State) (v master : Nat) : State :=
  match s.boot.run with
  | none => s.secRej
  | some b =>
    if master ≠ 0x60 ∨ s.bit Reg.SEC_PUSHSTAT 0 = false then s.secRej
    else if v % 65536 = 0xFFFF then (if b.manifest.isEmpty then s.pushManifest b else s)
    else if b.manifest.isEmpty = false ∧ v % 65536 = b.blocks then s.pushBlock b b.blocks
    else s

/-- PUSH_DOORBELL. -/
def execPushDoorbell (v : Word) (master : BitVec 8) (s : State) : Out := .next (s.pushWrite v.toNat master.toNat)

/-- BOOT_SOURCE_TIMEOUT: the time limit of a waiting PCIe source has passed, or a pushed image has failed: the boot ROM goes on to
the next source. -/
def execBootSourceTimeout (m : BootMedia) (s : State) : Out :=
  .next (match s.boot.run with
    | none => s
    | some b =>
      if b.failed then s
      else if s.bit Reg.SEC_PUSHSTAT 0 then (s.setFld Reg.SEC_PUSHSTAT 0 3 0).bootFrom m (b.tried + 1) (b.sources.drop 1)
      else s.bootFrom m b.tried b.sources)

/-- BOOT_RETRY_WAIT: every source has failed; 5 s later the boot ROM writes RST_SRCREQ.secfail. -/
def execBootRetryWait (s : State) : Out :=
  .next (match s.boot.run with
    | none => s
    | some b => if b.failed then ({ s with boot := { s.boot with run := none } }).raise 9 else s)

/-! ### The release (R425, R430, R431) -/

/-- Steps 3 to 6 of the release after an L0 reset: straps, fuses and repairs. -/
def State.releaseL0 (s : State) (st : Straps) : State :=
  let strap := st.bootsel.toNat + st.clkmode.toNat * 4 + (if st.golden then 16 else 0) + (if st.test then 32 else 0)
  let s1 := ((s.setRegN Reg.RST_STRAP strap).putBit Reg.RST_REGIME 2 st.test).senseFuses
  { s1 with dram := { s1.dram with applied := s1.dram.repairs } }

/-- CLK_STATUS once every PLL of the part has locked. -/
def State.allLocked (s : State) : Nat := 0x1003F + (2 ^ s.dies - 1) * 64 + (2 ^ s.clusters - 1) * 256

/-- Clocks, regulators, identity and mappings as the release leaves them. VOUT_MODE of the regulators is a free value. -/
def State.releaseUnits (s : State) : State :=
  let mode := s.fld Reg.RST_STRAP 2 2
  let s1 := (s.setRegN Reg.CLK_MODE (mode / 2 + mode % 2 * 2)).setRegN Reg.CLK_STATUS s.allLocked
  let r := s1.free 10
  let s2 := r.2.setRegN Reg.PMB_VMODE (r.1 % 32 + r.1 / 32 * 256)
  let s3 := ((s2.setRegBytes (Reg.SEC_IDPUB 0) s2.identity).applyRepairs).gpioSettle
  ({ s3 with rst := { s3.rst with swCount := 0 } }).setPhase .none

/-- RESET_RELEASE: the part leaves reset, and the boot ROM runs. After an L1 reset straps, fuses and the repair log are not read
again. With TESTMODE 1 the part stays in L0 reset. -/
def execResetRelease (st : Straps) (m : BootMedia) (s : State) : Out :=
  .next (
    if s.rst.phase != .release ∨ s.bit Reg.RST_REGIME 2 then s
    else
      let s1 := if s.rstLevel = 0 then s.releaseL0 st else s
      if s1.bit Reg.RST_REGIME 2 then s1
      else
        let s2 := s1.releaseUnits.setFld Reg.SYS_SC_WINDOW 0 5 16
        s2.bootFrom m 0 s2.bootOrder)

end Sys2Proof.Machine
end

