-- ==== Sys2Proof/Machine/Encoder.lean ====
section
/-! DEFINITION. Encoders (block 0x21 H.265, block 0x22 JPEG) and the timebase registers (11_video_ingest.md R310 to R312). -/

namespace Sys2Proof.Machine

/-! ### Encoders (R310). Encoder 0 is H.265, encoder 1 is JPEG. -/

/-- Descriptors of an encoder's command ring. -/
def State.encSize (s : State) (e : Nat) : Nat := 2 ^ s.fld (Reg.VENC_QCFG e) 0 4

/-- Address of descriptor i of an encoder's ring. -/
def State.encEntry (s : State) (e i : Nat) : Nat := s.reg64 (Reg.VENC_QBASE_LO e) % 2 ^ 40 + 64 * i

/-- A write to VENC_QTAIL: submits where the advance fits, in the manner of a job queue (R271). -/
def State.encTail (s : State) (e v : Nat) : State :=
  let size := s.encSize e
  let tail := s.fld (Reg.VENC_QTAIL e) 0 10
  let head := s.fld (Reg.VENC_QHEAD e) 0 10
  let t := v % 1024
  if t < size ∧ (t + size - tail % size) % size ≤ size - 1 - (tail + size - head % size) % size then s.setFld (Reg.VENC_QTAIL e) 0 10 t
  else s

/-- ENCODER_SUBMIT. -/
def execEncoderSubmit (e : Fin 2) (v : Word) (s : State) : Out := .next (s.encTail e.val v.toNat)

/-- The descriptor at the head ends: bytes 52 to 63, then the status word. -/
def State.encEnd (s : State) (e code written : Nat) : State :=
  let head := s.fld (Reg.VENC_QHEAD e) 0 10
  let a := s.encEntry e head
  let s1 := (s.agentWrite (a + 52) (leBytes 4 written ++ leBytes 8 s.pickNow)).agentWrite (a + 48) (leBytes 4 (code + 2 ^ 31))
  ((s1.setFld (Reg.VENC_QHEAD e) 0 10 ((head + 1) % s.encSize e)).wrapAdd (Reg.VENC_DONE e) 1).sticky (Reg.VENC_IRQ e) 0

/-- The parameters of a descriptor are outside their stated ranges (BAD_PARAM). -/
def encBad (e : Nat) (d : List Nat) : Bool :=
  let w := sub d 8 2
  let h := sub d 10 2
  if e = 0 then w % 8 != 0 || h % 8 != 0 || decide (w < 64) || decide (4096 < w) || decide (h < 64) || decide (2304 < h) ||
    decide (1 < sub d 14 1) || decide (51 < sub d 15 1)
  else w % 2 != 0 || h % 2 != 0 || decide (w < 16) || decide (4096 < w) || decide (h < 16) || decide (2304 < h) || decide (1 < sub d 14 1)

/-- ENCODE_COMPLETE: encoder e finishes the descriptor at its head. The coded bytes are the operand: the coding standards are no
part of this specification. -/
def execEncodeComplete (e : Fin 2) (r : EncodeResult) (s : State) : Out :=
  .next (
    let k := e.val
    let head := s.fld (Reg.VENC_QHEAD k) 0 10
    let size := s.encSize k
    if s.bit (Reg.VENC_QCFG k) 8 = false ∨ head % size = s.fld (Reg.VENC_QTAIL k) 0 10 % size ∨ s.weaveState = 6 then s
    else
      let a := s.encEntry k head
      let d := s.bytes a 64
      let lines := sub d 12 2 * sub d 10 2
      if s.badRange a 64 then s.encEnd k 4 0
      else if encBad k d then s.encEnd k 3 0
      else match r with
        | .uncorrectable => s.encEnd k 4 0
        | .coded bs recon =>
          let out := bs.map (fun b => b.toNat)
          let dst := if k = 0 then sub d 32 8 else sub d 24 8
          let cap := if k = 0 then sub d 40 8 else sub d 32 8
          if s.badRange (sub d 0 8) (lines + lines / 2) then s.encEnd k 4 0
          else
            let s1 := s.agentWrite dst (out.take cap)
            let s2 := if k = 0 then s1.agentWrite (sub d 24 8) (recon.map (fun b => b.toNat)) else s1
            s2.encEnd k (if out.length ≤ cap then 1 else 2) (min out.length cap))

/-- Every pending descriptor of an encoder ends CANCELLED. -/
def State.encCancel (s : State) (e : Nat) : State :=
  let size := s.encSize e
  let n := (s.fld (Reg.VENC_QTAIL e) 0 10 + size - s.fld (Reg.VENC_QHEAD e) 0 10 % size) % size
  (List.range n).foldl (fun t _ => t.encEnd e 5 0) s

/-- A write to VENC_QCFG: while enabled only the enable bit can change; clearing it cancels what is pending. -/
def State.encCfg (s : State) (e v : Nat) : State :=
  if s.bit (Reg.VENC_QCFG e) 8 then
    (if v.testBit 8 then s else s.encCancel e |>.putBit (Reg.VENC_QCFG e) 8 false)
  else s.setRegN (Reg.VENC_QCFG e) (v &&& 0x10F)

/-- ENCODER_DISABLE: a write to VENC_QCFG. -/
def execEncoderDisable (e : Fin 2) (v : Word) (s : State) : Out := .next (s.encCfg e.val v.toNat)

/-! ### Timebase (R44, R311, R312) -/

/-- A signed 64-bit value from its two words. -/
def signed64 (lo hi : Nat) : Int :=
  let v : Nat := lo + hi * 2 ^ 32
  if v < 2 ^ 63 then (v : Int) else (v : Int) - 2 ^ 64

/-- A write to TBS_STEP_HI. -/
def State.timeStep (s : State) (v : Nat) : State :=
  let step := signed64 (s.regN Reg.TBS_STEP_LO) v
  let w := s.weaveState
  if w = 3 ∨ w = 4 ∨ w = 6 then
    let r := s.stepRest + 5 * step
    ({ s with stepRest := r }).putBit Reg.TBS_STATUS 0 (r != 0)
  else s.setTime (((s.time : Int) + step) % ((2 ^ 64 : Nat) : Int)).toNat

/-- TIMEBASE_STEP. -/
def execTimebaseStep (v : Word) (s : State) : Out := .next (s.timeStep v.toNat)

/-- STEP_ABSORBED: nothing of the step is left. -/
def execStepAbsorbed (s : State) : Out := .next (if s.stepRest = 0 then s.putBit Reg.TBS_STATUS 0 false else s)

/-- A write to TBS_SET_HI. -/
def State.timeSet (s : State) (v : Nat) : State :=
  let w := s.weaveState
  if w = 0 ∨ w = 2 ∨ w = 5 ∨ w = 7 then s.setTime (s.regN Reg.TBS_SET_LO + v * 2 ^ 32) else s.sticky Reg.TBS_STATUS 1

/-- TIMEBASE_SET. -/
def execTimebaseSet (v : Word) (s : State) : Out := .next (s.timeSet v.toNat)

end Sys2Proof.Machine
end

