-- ==== Sys2Proof/Machine/Bus.lean ====
section
/-! DEFINITION. Accesses of the bus masters: writes and reads of every register block, and the decode of an access to the device
address space (00_scope.md R5, R11 to R18; 01_architecture.md R28 to R33; 13 R342, R343; 16 R418). -/

namespace Sys2Proof.Machine

/-! ### Register writes (R13, R14) -/

/-- Runs f on a register whose LOCK fields are open; a locked one takes a lock violation (R14). -/
def State.openOnly (s : State) (a master : Nat) (f : State → State) : State :=
  if s.locked a then s.lockViolation a master else f s

/-- A write in block 0x00 (06). A way that field repair retires stays out of every mask (R362). -/
def State.sysWrite (s : State) (a v master : Nat) : State :=
  if a = Reg.SYS_SDT_BASE_LO then s.sdtBaseWrite false v master
  else if a = Reg.SYS_SDT_BASE_HI then s.sdtBaseWrite true v master
  else if a = Reg.SYS_SDT_INV then s.sdtInvWrite v
  else if a = Reg.SYS_SC_WINDOW then s.windowWrite v master
  else if Reg.SYS_SC_WAYMASK 0 ≤ a ∧ a < Reg.SYS_SC_WAYMASK 8 then
    (s.lostWays).foldl (fun t w => t.putBit a w false) (s.plainWrite a v master)
  else s.plainWrite a v master

/-- A write of RST_SRCREQ: dict, then secfail. -/
def State.srcReqWrite (s : State) (v : Nat) : State :=
  let s1 := if v.testBit 0 then s.raise 6 else s
  if v.testBit 1 then s1.raise 9 else s1

/-- A write in block 0x01 (16). -/
def State.rstWrite (s : State) (a v master : Nat) : State :=
  if a = Reg.RST_CTRL then s.rstCtrlWrite v master
  else if Reg.RST_BLK 0 ≤ a ∧ a < Reg.RST_BLK 4 then s.rstBlkWrite ((a - Reg.RST_BLK 0) / 4) v master
  else if a = Reg.RST_CORE then s.rstCoreWrite v master
  else if a = Reg.RST_REGIME then s.regimeWrite v master
  else if a = Reg.RST_SRCREQ then s.srcReqWrite v
  else if a = Reg.RST_SWDT then
    s.openOnly a master (fun t => if v % 65536 = 0 then t.rstRej else t.plainWrite a v master)
  else if a = Reg.RST_SWDT_KICK then s.kick false v
  else if a = Reg.RST_AWDT_KICK then s.kick true v
  else s.plainWrite a v master

/-- A write in block 0x02: a domain above 115 is ignored. -/
def State.clkWrite (s : State) (a v master : Nat) : State :=
  if a = Reg.CLK_OBS then
    (s.plainWrite a (if 115 < v % 128 then putField v 0 7 (s.fld a 0 7) else v) master).gpioSettle
  else s.plainWrite a v master

/-- A write of PWR_CTRL: a field outside its range is ignored and sets rej. -/
def State.pwrCtrlWrite (s : State) (v master : Nat) : State :=
  let a := Reg.PWR_CTRL
  let m := field v 2 4
  let goodM := decide (6 ≤ m ∧ m ≤ 10)
  let goodF := decide (field v 6 4 ≤ 6)
  let v1 := if goodM then v else putField v 2 4 (s.fld a 2 4)
  let v2 := if goodF then v1 else putField v1 6 4 (s.fld a 6 4)
  (s.plainWrite a v2 master).stickyIf (!(goodM && goodF)) Reg.PWR_STATUS 4

/-- The fields of a write of PWR_THERM lie in the ranges of Table, Thermal points. -/
def thermOk (v : Nat) : Bool :=
  let throt := field v 0 8
  let emerg := field v 8 8
  let grad := field v 16 8
  decide (70 ≤ throt ∧ throt ≤ 100) && decide (10 ≤ grad ∧ grad ≤ 40) && decide (throt + 5 ≤ emerg ∧ emerg ≤ 112)

/-- A write in block 0x03 (15). -/
def State.pwrWrite (s : State) (a v master : Nat) : State :=
  if a = Reg.PWR_PROFILE then s.profileWrite v master
  else if a = Reg.PWR_CTRL then s.pwrCtrlWrite v master
  else if a = Reg.PWR_THERM then
    s.openOnly a master (fun t => if thermOk v then t.plainWrite a v master else t.sticky Reg.PWR_STATUS 4)
  else s.plainWrite a v master

/-- A write of FUSE_PROG_CTRL through the fabric: whether VPP_FUSE is in range is a free value. -/
def State.fuseBlockWrite (s : State) (a v master : Nat) : State :=
  if a = Reg.FUSE_PROG_CTRL then
    let r := s.free 1
    r.2.fuseWrite v master (r.1 == 1)
  else s.plainWrite a v master

/-- A write in block 0x06 (17). -/
def State.secWrite (s : State) (a v master : Nat) : State :=
  if a = Reg.SEC_EXTCTRL then s.extWrite v master
  else if a = Reg.SEC_KDF_CTRL then s.kdfWrite v master
  else if a = Reg.SEC_ATT_CTRL then s.attWrite v master
  else if a = Reg.SEC_HANDOVER then s.handWrite v master
  else if a = Reg.SEC_PUSHDB then s.pushWrite v master
  else s.secPlain a v master

/-- A write in block 0x08 (13). -/
def State.dmcWrite (s : State) (a v master : Nat) : State :=
  if a = Reg.DMC_CTRL then s.dmcCtrl v
  else if Reg.DMC_CHHASH0 ≤ a ∧ a ≤ Reg.DMC_BKHASH_HI then s.maskRegWrite a v master
  else s.plainWrite a v master

/-- A write in block 0x21 or 0x22 (11): the command ring's base stays while the queue is enabled. -/
def State.encWrite (s : State) (e a v master : Nat) : State :=
  if a = Reg.VENC_QTAIL e then s.encTail e v
  else if a = Reg.VENC_QCFG e then s.encCfg e v
  else if (a = Reg.VENC_QBASE_LO e ∨ a = Reg.VENC_QBASE_HI e) ∧ s.bit (Reg.VENC_QCFG e) 8 then s
  else s.plainWrite a v master

/-- A write in block 0x28 to 0x2B (12). -/
def State.pixWrite (s : State) (n a v master : Nat) : State :=
  if a = Reg.PIX_CTRL n then s.pixEnable n v
  else if a = Reg.PIX_CFG n ∨ a = Reg.PIX_GEOM n ∨ a = Reg.PIX_WIN n then s.pixConfig n (a - Reg.PIX_CTRL n) v
  else s.plainWrite a v master

/-- A write in block 0x2C (12). -/
def State.ispWrite (s : State) (a v master : Nat) : State :=
  match (List.range 4).find? (fun n => a == Reg.ISP_CTX_COMMIT n) with
  | some n => if v.testBit 0 then s.ispCommit n else s
  | none => s.plainWrite a v master

/-- A write in block 0x30 or 0x31 (11). -/
def State.netWrite (s : State) (a v master : Nat) : State :=
  if Reg.NET_TABLE 0 0 ≤ a ∧ a < Reg.NET_TABLE 0 8192 then
    s.streamWrite ((a - Reg.NET_TABLE 0 0) / 64) ((a - Reg.NET_TABLE 0 0) / 4 % 16) v
  else if a = Reg.NET_ANC_CMT 0 then (if v.testBit 0 then s.anchorCommit else s)
  else s.plainWrite a v master

/-- Largest magnitude of TBS_RATE (R311). -/
def rateMax : Nat := 219902325

/-- A write in block 0x33 (11). A rate beyond its limit is taken as the limit (R311; assumption 57). -/
def State.tbsWrite (s : State) (a v master : Nat) : State :=
  if a = Reg.TBS_STEP_HI then s.timeStep v
  else if a = Reg.TBS_SET_HI then s.timeSet v
  else if a = Reg.TBS_RATE then
    let m := if v < 2 ^ 31 then min v rateMax else 2 ^ 32 - min (2 ^ 32 - v) rateMax
    s.plainWrite a m master
  else if a = Reg.TBS_PPS then
    let s1 := s.plainWrite a v master
    (if s1.bit Reg.TBS_PPS 0 then s1 else { s1 with host := { s1.host with pps := false } }).gpioSettle
  else s.plainWrite a v master

/-- A window base of BAR2: 1 MiB aligned, in the DRAM range or the system cache window range (R488). -/
def winBaseOk (b : Nat) : Bool := b % 0x100000 == 0 && (decide (b < 0x1000000000) || (decide (0x1300000000 ≤ b) && decide (b < 0x1302000000)))

/-- A write to a half of PCIE_WINw or PCIE_IWIN. -/
def State.winWrite (s : State) (a v master : Nat) : State :=
  s.openOnly a master (fun t =>
    let hi := (a - Reg.PCIE_WIN_LO 0) % 8 == 4
    let lo := if hi then a - 4 else a
    let b := if hi then t.regN lo + v % 256 * 2 ^ 32 else v + t.fld (lo + 4) 0 8 * 2 ^ 32
    if a < Reg.PCIE_IWIN_LO ∧ winBaseOk b = false then t.sticky Reg.PCIE_STAT 0 else t.plainWrite a v master)

/-- A write of PCIE_CFG: a width other than 1, 2 or 4 is ignored and sets rej. -/
def State.pcieCfgWrite (s : State) (v master : Nat) : State :=
  let w := v % 8
  let a := Reg.PCIE_CFG
  if w = 1 ∨ w = 2 ∨ w = 4 then s.plainWrite a v master
  else s.openOnly a master (fun t => (t.plainWrite a (putField v 0 3 (t.fld a 0 3)) master).sticky Reg.PCIE_STAT 0)

/-- A write in block 0x38 (19). -/
def State.pcieWrite (s : State) (a v master : Nat) : State :=
  if Reg.PCIE_WIN_LO 0 ≤ a ∧ a ≤ Reg.PCIE_IWIN_HI then s.winWrite a v master
  else if a = Reg.PCIE_CFG then s.pcieCfgWrite v master
  else if a = Reg.PCIE_H2A_SET then s.ring Reg.PCIE_H2A v
  else if a = Reg.PCIE_A2H_SET then s.ring Reg.PCIE_A2H v
  else if a = Reg.PCIE_EOI then s.eoi v
  else if Reg.PCIE_MSIX_ADDR_LO 0 ≤ a ∧ a < Reg.PCIE_MSIX_ADDR_LO 32 ∧ a % 16 = 12 then s.maskWrite ((a - Reg.PCIE_MSIX_ADDR_LO 0) / 16) v
  else s.plainWrite a v master

/-- A write of WV_CTRL: the command, then the lock bit. -/
def State.wvCtrlWrite (s : State) (v master : Nat) : State :=
  let s1 := match v % 16 with
    | 0 => s
    | 1 => s.unlessLocked master s.cmdLoad
    | 2 => s.cmdStart
    | 3 => s.unlessLocked master s.cmdStop
    | 4 => s.unlessLocked master s.cmdReplace
    | 5 => s.unlessLocked master s.cmdAbandon
    | 6 => s.cmdHedge
    | _ => s.cmdRejected
  if v.testBit 8 then s1.sticky Reg.WV_CTRL 8 else s1

/-- A write in block 0x40 (02, 10). -/
def State.wvWrite (s : State) (a v master : Nat) : State :=
  if a = Reg.WV_CTRL then s.wvCtrlWrite v master
  else if a = Reg.WV_LPT_CTRL then s.lptWrite v
  else if Reg.WV_JQ_BASE_LO 0 ≤ a ∧ a < Reg.WV_JQ_BASE_LO 16 then
    let n := (a - Reg.WV_JQ_BASE_LO 0) / 64
    if a = Reg.WV_JQ_TAIL n then s.jqTailWrite n v master
    else if a = Reg.WV_JQ_CANCEL n then s.jqCancelWrite n v master
    else if a = Reg.WV_JQ_CFG n then s.jqCfgWrite n v master
    else if a ≤ Reg.WV_JQ_SAVE_HI n then s.jqPlainWrite n a v master
    else s.plainWrite a v master
  else s.plainWrite a v master

/-- Ring number of a register of block 0x41. -/
def ringOf (a : Nat) : Nat := if a < Reg.RING_BASE_LO 255 then (a - Reg.RING_BASE_LO 0) / 0x20 else 255

/-- A write in block 0x41 (19): clearing the hedge ring's interrupt restarts its record count (R497). -/
def State.ringBlockWrite (s : State) (a v master : Nat) : State :=
  if a = Reg.RING_IRQ2 then
    let s1 := s.plainWrite a v master
    if v.testBit 0 then { s1 with weave := { s1.weave with hedgeCount := 0 } } else s1
  else if Reg.RING_BASE_LO 0 ≤ a ∧ a = Reg.RING_RP (ringOf a) then s.rpWrite (ringOf a) v
  else s.plainWrite a v master

/-- A write of SCRB_CTRL: go, then abort. -/
def State.scrbWrite (s : State) (a v master : Nat) : State :=
  if a = Reg.SCRB_CTRL then
    let s1 := if v.testBit 0 then s.scrubGo else s
    if v.testBit 1 then s1.scrubAbort else s1
  else s.plainWrite a v master

/-- A write in block 0x58 (20). -/
def State.gpioWrite (s : State) (a v master : Nat) : State :=
  if a = Reg.GPIO_DIR then s.gpioDir v
  else if a = Reg.GPIO_SET then s.gpioSet v
  else if a = Reg.GPIO_CLR then s.gpioClr v
  else (s.plainWrite a v master).gpioSettle

/-- A write of CORE_CTRL.cmd of core p. Which engines stand in a pass when HALT arrives is a free value. -/
def State.coreCmd (s : State) (p v master : Nat) : State :=
  match v % 8 with
  | 0 => s
  | 1 => s.cmdPark p
  | 2 => s.cmdResume p
  | 3 =>
    let r := s.free 4
    (if r.2.coreState p = 3 then r.2 else r.2.discardTiles p r.1).haltCore p haltExt master 0 false
  | 4 => s.cmdUnhalt p
  | 5 => s.cmdSpare p
  | _ => s.ctrlRej p

/-- A write at offset o of the registers of core p (03 to 08, 10). -/
def State.coreRegWrite (s : State) (p a v master : Nat) : State :=
  let o := a - Reg.coreReg p
  if o = 0x8 then s.coreCmd p v master
  else if o = 0x80 then s.allowWrite p false v master
  else if o = 0x84 then s.allowWrite p true v master
  else if o = 0x200 then s.gangWrite p v
  else if o = 0x280 then s.numcfgWrite p v
  else if o = 0x298 then s.maxabsClrWrite p v
  else if o = 0x300 then
    let s1 := s.plainWrite a v master
    if v.testBit 0 then s1.setRegN (Reg.CORE_SEERRCAP p) 0 else s1
  else if o = 0x304 then s.seinvWrite p v
  else if 0xA00 ≤ o ∧ o < 0xB00 then s.pshWrite p ((o - 0xA00) / 4) (BitVec.ofNat 32 v)
  else if 0xC00 ≤ o ∧ o < 0xD00 then s.ctxWrite p ((o - 0xC00) / 4) (BitVec.ofNat 32 v)
  else s.plainWrite a v master

/-- Droop thresholds in their ranges (15): thresh 20 to 80 mV, deep from twice thresh to 160 mV. -/
def droopOk (v : Nat) : Bool :=
  let t := field v 0 8
  let d := field v 8 8
  decide (20 ≤ t ∧ t ≤ 80) && decide (2 * t ≤ d ∧ d ≤ 160)

/-- A write in the register window of cluster g (06, 08, 15). -/
def State.cluWrite (s : State) (g a v master : Nat) : State :=
  let o := a - Reg.cluReg g
  if o = 0x104 then (if v.testBit 0 then s.dropReadCache g else s)
  else if 0x10 ≤ o ∧ o < 0x30 then s.roleWrite (8 * g + (o - 0x10) / 4) v
  else if o = 0x200 then (if droopOk v then s.plainWrite a v master else s)
  else s.plainWrite a v master

/-- A write to a register of I/O die block b. -/
def State.blockWrite (s : State) (b a v master : Nat) : State :=
  match b with
  | 0x00 => s.sysWrite a v master
  | 0x01 => s.rstWrite a v master
  | 0x02 => s.clkWrite a v master
  | 0x03 => s.pwrWrite a v master
  | 0x04 => s.fuseBlockWrite a v master
  | 0x05 => s.nvmRegWrite a v master
  | 0x06 => s.secWrite a v master
  | 0x08 => s.dmcWrite a v master
  | 0x21 => s.encWrite 0 a v master
  | 0x22 => s.encWrite 1 a v master
  | 0x28 => s.pixWrite 0 a v master
  | 0x29 => s.pixWrite 1 a v master
  | 0x2A => s.pixWrite 2 a v master
  | 0x2B => s.pixWrite 3 a v master
  | 0x2C => s.ispWrite a v master
  | 0x30 => s.netWrite a v master
  | 0x32 => if a = Reg.MNET_MDIO_CTRL then s.mdioWrite v else s.plainWrite a v master
  | 0x33 => s.tbsWrite a v master
  | 0x38 => s.pcieWrite a v master
  | 0x40 => s.wvWrite a v master
  | 0x41 => s.ringBlockWrite a v master
  | 0x48 => s.scrbWrite a v master
  | 0x50 => if a = Reg.HCX_RELEASE ∨ a = Reg.HCX_RVEC_LO ∨ a = Reg.HCX_RVEC_HI then s.hcxWrite a v master else s.plainWrite a v master
  | 0x51 => s.stwWrite a v master
  | 0x58 => s.gpioWrite a v master
  | 0x5B => if a = Reg.PMB_MBX_CTRL then s.mbxWrite v else s.plainWrite a v master
  | _ => s.plainWrite a v master

/-- A write of 32 bits to the register at physical address a. A target held in an L3 reset ignores it (R418). The endpoint looks at
the interrupt vectors before and after. -/
def State.regWrite (s : State) (a v master : Nat) : State :=
  if s.heldAt a then s
  else if 0x1200000000 ≤ a ∧ a < 0x1210000000 then s.watched (fun t => t.blockWrite ((a - 0x1200000000) / 0x100000) a v master)
  else if 0x10C0000000 ≤ a then s.cluWrite ((a - 0x10C0000000) / 0x100000) a v master
  else s.coreRegWrite (Reg.coreOfReg a) a v master

/-! ### Register reads (R12, R13, R16) -/

/-- Offsets of low words in an I/O die block. -/
def pairLows (b : Nat) : List Nat :=
  match b with
  | 0x00 => [0x100]
  | 0x06 => [0x24]
  | 0x20 => [0x8]
  | 0x21 => [0x0]
  | 0x22 => [0x0]
  | 0x2C => [0x8, 0x20, 0x28, 0x30, 0x38]
  | 0x30 => [0x8, 0x10, 0x20, 0x28, 0x204]
  | 0x31 => [0x8, 0x10, 0x20, 0x28]
  | 0x32 => [0x8, 0x10, 0x20, 0x28]
  | 0x33 => [0x0, 0xC, 0x14]
  | 0x38 => [0x10, 0x18, 0x20, 0x28, 0x30]
  | 0x40 => [0x8, 0x10, 0x20, 0x40, 0x48, 0x50, 0x110, 0x118]
  | 0x48 => [0x8, 0x10, 0x1C, 0x40, 0x50, 0x58]
  | 0x49 => [0x24, 0x30]
  | 0x50 => [0x4, 0x10]
  | b => if 0x09 ≤ b ∧ b ≤ 0x18 then [0x10, 0x18] else []

/-- The register at a is the low word of a 64-bit quantity (R12). -/
def pairLow (a : Nat) : Bool :=
  if 0x1200000000 ≤ a ∧ a < 0x1210000000 then
    let b := (a - 0x1200000000) / 0x100000
    let o := (a - 0x1200000000) % 0x100000
    (pairLows b).contains o ||
    (b == 0x40 && decide (0x400 ≤ o ∧ o < 0x800) && (o % 0x40 == 0 || o % 0x40 == 0xC || o % 0x40 == 0x14)) ||
    (b == 0x41 && decide (0x100 ≤ o ∧ o < 0x920) && o % 0x20 == 0) ||
    (b == 0x30 && decide (0x10000 ≤ o ∧ o < 0x18000) && (o % 64 == 16 || o % 64 == 32)) ||
    (b == 0x49 && decide (0x1000 ≤ o ∧ o < 0x3000) && (o % 32 == 0 || o % 32 == 24)) ||
    (b == 0x38 && decide (0x8000 ≤ o ∧ o < 0x8200) && o % 16 == 0)
  else if 0x1000000000 ≤ a ∧ a < 0x1090000000 then
    let o := a % 0x2000000
    o == 0x1000018 || o == 0x1000020 || (decide (0x1000C80 ≤ o ∧ o < 0x1000D00) && o % 8 == 0)
  else false

/-- CLK_STATUS bit of the PLL of a clock domain of the I/O die (Table, Clock domains). -/
def domainPll (i : Nat) : Nat :=
  if 82 ≤ i ∧ i ≤ 98 then 2 else if i = 106 ∨ i = 107 then 3 else if i = 109 then 4 else if i = 110 then 1 else if i = 115 then 5 else 0

/-- Clock domain i runs and is not gated; a pixel port's domain runs while its port has a signal. -/
def State.domainRuns (s : State) (i : Nat) : Bool :=
  if i < 72 then s.power.awake.contains (8 + i) && s.bit Reg.CLK_STATUS (8 + i / 9)
  else if i < 80 then s.power.awake.contains (i - 72) && s.bit Reg.CLK_STATUS (8 + (i - 72))
  else if i < 82 then s.bit Reg.CLK_STATUS (6 + (i - 80))
  else if 102 ≤ i ∧ i ≤ 105 then s.bit (Reg.PIX_STATUS (i - 102)) 0
  else decide (i < 116) && s.bit Reg.CLK_STATUS (domainPll i)

/-- CLK_DOMSTATw. -/
def State.domStat (s : State) (w : Nat) : Nat :=
  (List.range 32).foldl (fun v i => if s.domainRuns (32 * w + i) then v + 2 ^ i else v) 0

/-- CORE_SESTRMn of core p. -/
def State.slotStat (s : State) (p n : Nat) : Nat :=
  match Tbl.find n (s.core p).slots with
  | some k => (if k.active then 1 else 0) + k.kind % 8 * 2 + k.index % 4096 * 16
  | none => 0

/-- CORE_PICKACK: the pick offset acknowledged last; valid once one has been. -/
def State.pickAck (s : State) (p : Nat) : Nat :=
  let c := s.core p
  let start := s.pickNow - s.coreOffset p
  if start < c.acked then (c.acked - 1 - start) % 2 ^ 20 + 2 ^ 31 else 0

/-- Computed view of a register of core p, at offset o. -/
def State.coreView (s : State) (p o a : Nat) : Nat :=
  let c := (s.core p).woven
  if o = 0xC then s.coreRole p
  else if o = 0x28 then c.pc % 2 ^ 20
  else if o = 0x2C then s.pickAck p
  else if o = 0x30 then c.depth + c.sp * 16
  else if 0x40 ≤ o ∧ o < 0x50 then (Tbl.get (fun _ => 0) c.lc ((o - 0x40) / 4) : Word).toNat
  else if 0x50 ≤ o ∧ o < 0x60 then Tbl.get (fun _ => 0) c.stack ((o - 0x50) / 4)
  else if o = 0x8C then s.lctx p 0
  else if o = 0x90 then s.lctx p 1
  else if 0x340 ≤ o ∧ o < 0x380 then s.slotStat p ((o - 0x340) / 4)
  else if 0xA00 ≤ o ∧ o < 0xB00 then (Tbl.get (fun _ => 0) s.pshadow (64 * s.paramOwner p + (o - 0xA00) / 4) : Word).toNat
  else if 0xB00 ≤ o ∧ o < 0xC00 then (s.paramActive p ((o - 0xB00) / 4)).toNat
  else if 0xC00 ≤ o ∧ o < 0xC80 then (c.getS ((o - 0xC00) / 4)).toNat
  else if 0xC80 ≤ o ∧ o < 0xD00 then
    let v := (c.getA ((o - 0xC80) / 8)).toNat
    if o % 8 = 0 then v % 2 ^ 32 else v / 2 ^ 32
  else s.regN a

/-- Computed view of a register of pixel port n: PIX_STATUS.pending says that a stamped frame is unconsumed. -/
def State.pixView (s : State) (n o a : Nat) : Nat :=
  if o = 0x1C then putField (s.regN a) 3 1 (if (Tbl.get (fun _ => []) s.ingest.pend (0x400 + n)).isEmpty then 0 else 1) else s.regN a

/-- Computed view of a register of I/O die block b, at offset o. -/
def State.blockView (s : State) (b o a master : Nat) : Nat :=
  match b with
  | 0x02 => if 0x10 ≤ o ∧ o < 0x20 then s.domStat ((o - 0x10) / 4) else s.regN a
  | 0x06 =>
    if 0x80 ≤ o ∧ o < 0xB0 then (if master = 0x61 then s.regN a else 0)
    else if 0x40 ≤ o ∧ o < 0x70 then 0
    else s.regN a
  | 0x28 => s.pixView 0 o a
  | 0x29 => s.pixView 1 o a
  | 0x2A => s.pixView 2 o a
  | 0x2B => s.pixView 3 o a
  | 0x40 =>
    if o = 0x108 then s.jobStat
    else if o = 0x2C then s.fld a 0 16 + s.pendingVariant * 65536
    else if 0x400 ≤ o ∧ o < 0x800 ∧ o % 0x40 = 0x34 then putField (s.regN a) 0 3 (s.clientJobs ((o - 0x400) / 0x40))
    else s.regN a
  | 0x50 =>
    if o = 0x10 then s.hubPend
    else if 0x200 ≤ o ∧ o < 0x220 then s.hubCore ((o - 0x200) / 4)
    else s.regN a
  | 0x51 =>
    if 0x1000 ≤ o then (if s.holds master then s.regN a else 0)
    else if 0x400 ≤ o ∧ o < 0x810 then 0
    else s.regN a
  | _ => s.regN a

/-- The value that a read of the register at a returns; no offset without a row reads anything but 0. -/
def State.liveReg (s : State) (a master : Nat) : Nat :=
  if (Reg.rowOf a).isNone then 0
  else if 0x1200000000 ≤ a ∧ a < 0x1210000000 then
    s.blockView ((a - 0x1200000000) / 0x100000) ((a - 0x1200000000) % 0x100000) a master
  else if 0x10C0000000 ≤ a ∧ a < 0x10C0800000 then
    (if (a - 0x10C0000000) % 0x100000 = 8 then s.slotState ((a - 0x10C0000000) / 0x100000) else s.regN a)
  else s.coreView (Reg.coreOfReg a) (a - Reg.coreReg (Reg.coreOfReg a)) a

/-- Clears the valid bit of a capture register. -/
def State.dropCapture (s : State) (a : Nat) : State := s.putBit a 31 false

/-- What a read of the register at a changes: RC bits clear, and counters that hold a capture release it. -/
def State.readEffect (s : State) (a : Nat) : State :=
  let s1 := (s.plainRead a).2
  if a = Reg.RAS_LOCKVIOL then s1.dropCapture Reg.RAS_LOCKCAP_HI
  else if a = Reg.RAS_BUSERR then s1.dropCapture Reg.RAS_BUSCAP_HI
  else match (List.range 16).find? (fun c => a == Reg.DCH_CE c || a == Reg.DCH_UE c) with
    | some c => s1.dropCapture (if a = Reg.DCH_CE c then Reg.DCH_CEADDR_HI c else Reg.DCH_UEADDR_HI c)
    | none => match (List.range 8).find? (fun g => a == Reg.CLU_STALE g) with
      | some g => s1.dropCapture (Reg.CLU_STALECAP g)
      | none => s1

/-- A pin that carries the observed clock reads as a free value. -/
def State.obsInput (s : State) (a v : Nat) : Nat × State :=
  let n := s.fld Reg.CLK_OBS 10 5
  if a = Reg.GPIO_IN ∧ s.pinLevel n = none then
    let r := s.free 1
    (putField v n 1 r.1, r.2)
  else (v, s)

/-- A read of the register at physical address a by a master: the high word of a pair that the master has latched, or the value
now; a low word latches its high word. A target held in an L3 reset reads 0 (R418). -/
def State.readReg (s : State) (a master : Nat) : Nat × State :=
  if s.heldAt a then (0, s)
  else
    let key := 256 * (a - 4) + master
    match (if pairLow (a - 4) then Tbl.get (fun _ => none) s.pairs key else none) with
    | some w => (w.toNat, { s with pairs := Tbl.set (fun _ => none) s.pairs key none })
    | none =>
      let r := s.obsInput a (s.liveReg a master)
      let s1 := if pairLow a then
          { r.2 with pairs := Tbl.set (fun _ => none) r.2.pairs (256 * a + master) (some (BitVec.ofNat 32 (s.liveReg (a + 4) master))) }
        else r.2
      (r.1, s1.readEffect a)

/-! ### Memory (R28 to R32, R342, R343) -/

/-- Home of the event history (Table, NVM layout). -/
def histBase : Nat := 0x1401230000

/-- A byte of the NVM read window: the event history lies in 4,096 entries of 32 bytes, written in rotation. -/
def State.nvmByte (s : State) (a : Nat) : Nat :=
  if histBase ≤ a ∧ a < histBase + 0x20000 then
    let i := (a - histBase) / 32
    let back := (s.histCount + 4095 - i) % 4096
    if back < s.hist.length then (s.hist.getD back []).getD ((a - histBase) % 32) 0 else 0
  else s.byte a

/-- The bytes that a read of n bytes at a place delivers, and whether they carry the uncorrectable flag. -/
def State.memRead (s : State) (pl : Place) (n : Nat) : List Nat × Bool :=
  match pl with
  | .dram a => (if s.chanDead a then List.replicate n 0 else s.bytes a n, s.badRange a n)
  | .window a => (s.bytes a n, s.badRange a n)
  | .nvm a => ((List.range n).map (fun i => s.nvmByte (a + i)), false)
  | .rom a => (s.bytes a n, false)
  | .core _ _ a => (s.bytes a n, false)
  | _ => ([], false)

/-- A range of n bytes of core p's scratchpad or accumulators that woven work may read: the core runs a woven role, and the range
lies in no host-writable region of the role and not in the loose allowance of the core (R32). -/
def State.wovenRange (s : State) (p : Nat) (w : WinPart) (a n : Nat) : Bool :=
  let o := a - coreBase p
  let (b, k) := s.allowance p
  let within := fun (lo size : Nat) => decide (lo ≤ o) && decide (o + n ≤ lo + size)
  let loose := match w with
    | .scratch => within b k
    | _ => (List.range 4).any (fun e => (setBits (s.tilesAllowed p) 16).any (fun t => within (accOff + e * 0x10000 + t * 0x1000) 0x1000))
  let host := match s.variant, s.roleOf p with
    | some v, some l => v.host.any (fun h => h.core == l && within (if h.space = 0 then h.offset else accOff + h.engine * 0x10000 + h.offset) h.size)
    | _, _ => false
  s.wovenRole p && (s.coreState p == 1 || s.coreState p == 2) && !loose && !host

/-- A write of bytes to a place from outside the cores. In a range that woven work reads the values that it leaves are undefined:
free values (R32). -/
def State.memWrite (s : State) (pl : Place) (bs : List Nat) : State :=
  match pl with
  | .dram a => if s.chanDead a then s else (s.setBytes a bs).healLines ((List.range bs.length).map (fun i => a + i))
  | .window a => (s.setBytes a bs).healLines ((List.range bs.length).map (fun i => a + i))
  | .core p .prog a => s.progWrite p (a - coreBase p - progOff) bs
  | .core p w a =>
    if s.wovenRange p w a bs.length then
      let r := s.freeBytes bs.length
      r.2.setBytes a r.1
    else s.setBytes a bs
  | _ => s

/-! ### The fabric (R11, R28) -/

/-- Sets what the last access gave its requester. -/
def State.answer (s : State) (r : Reply) : State := { s with reply := r }

/-- A read of n bytes at device address a by a master. -/
def State.fabricRead (s : State) (a n master : Nat) : State :=
  match s.place a n with
  | .err => (s.busError a master false).answer .error
  | .reg h =>
    if n = 4 ∧ h % 4 = 0 then
      let r := s.readReg h master
      r.2.answer (.data (leBytes 4 r.1))
    else (s.busError a master false).answer .error
  | pl =>
    let r := s.memRead pl n
    s.answer (if r.2 then .poisoned else .data r.1)

/-- A write of bytes at device address a by a master. -/
def State.fabricWrite (s : State) (a : Nat) (bs : List Nat) (master : Nat) : State :=
  match s.place a bs.length with
  | .err => (s.busError a master true).answer .error
  | .reg h =>
    if bs.length = 4 ∧ h % 4 = 0 then (s.regWrite h (leVal bs) master).answer .done
    else (s.busError a master true).answer .error
  | pl => if pl.writable then (s.memWrite pl bs).answer .done else (s.busError a master true).answer .error

/-- An access: a read, or a write of bytes. -/
def State.access (s : State) (a n : Nat) (write : Option (List Nat)) (master : Nat) : State :=
  match write with
  | none => s.fabricRead a n master
  | some bs => s.fabricWrite a bs master

/-- FABRIC_ACCESS. -/
def execFabricAccess (addr : BitVec 40) (n : BitVec 13) (write : Option (List (BitVec 8))) (master : BitVec 8) (s : State) : Out :=
  .next (s.access addr.toNat n.toNat (write.map (fun bs => bs.map (fun b => b.toNat))) master.toNat)

/-- OUTSIDE_CORE_ACCESS: an access to a core's scratchpad or accumulators. It may wait without limit while the core is RUNNING; the
command is its completion. -/
def execOutsideCoreAccess (addr : BitVec 40) (n : BitVec 13) (write : Option (List (BitVec 8))) (master : BitVec 8) (s : State) : Out :=
  let len := match write with
    | some bs => bs.length
    | none => n.toNat
  .next (match s.place addr.toNat len with
    | .core _ .scratch _ => s.access addr.toNat n.toNat (write.map (fun bs => bs.map (fun b => b.toNat))) master.toNat
    | .core _ .acc _ => s.access addr.toNat n.toNat (write.map (fun bs => bs.map (fun b => b.toNat))) master.toNat
    | _ => s)

/-- REGISTER_WRITE: a write of 32 bits to a register. -/
def execRegisterWrite (addr : BitVec 40) (v : Word) (master : BitVec 8) (s : State) : Out :=
  .next (s.fabricWrite addr.toNat (leBytes 4 v.toNat) master.toNat)

end Sys2Proof.Machine
end

