-- ==== Sys2Proof/Machine/Objects.lean ====
section
/-! DEFINITION. The object list of the object dictionary (18_object_dictionary.md R465, R466, R476): type, access, size, home and
range of every object. -/

namespace Sys2Proof.Machine

/-- Dictionary access codes. -/
inductive Acc where
  | ro
  | const
  | wo
  | rw
  | rws
  | once
  deriving DecidableEq, Repr

/-- Where an object's value lies: in consecutive registers, in a field of a register, in the steward's own values with a default, or
the object has a rule of its own. -/
inductive Home where
  | regs (a : Nat)
  | bits (a lo w : Nat)
  | value (dflt : List Nat)
  | own
  deriving DecidableEq, Repr

/-- An object: type code of Table, Object types as R471 numbers them; access; bytes, at most for STRING and DOMAIN; home; range. -/
structure Obj where
  type : Nat
  acc : Acc
  size : Nat
  home : Home
  lo : Nat
  hi : Nat
  deriving DecidableEq, Repr

/-- Largest value of n bytes. -/
def allOnes (n : Nat) : Nat := 256 ^ n - 1

/-- Objects of the unsigned types, with every value allowed. -/
def oBool (acc : Acc) (h : Home) : Obj := ⟨1, acc, 1, h, 0, 1⟩
def oU8 (acc : Acc) (h : Home) : Obj := ⟨2, acc, 1, h, 0, allOnes 1⟩
def oU16 (acc : Acc) (h : Home) : Obj := ⟨3, acc, 2, h, 0, allOnes 2⟩
def oU32 (acc : Acc) (h : Home) : Obj := ⟨4, acc, 4, h, 0, allOnes 4⟩
def oU64 (acc : Acc) (h : Home) : Obj := ⟨5, acc, 8, h, 0, allOnes 8⟩
def oI16 (acc : Acc) (h : Home) : Obj := ⟨7, acc, 2, h, 0, allOnes 2⟩
def oI64 (acc : Acc) (h : Home) : Obj := ⟨9, acc, 8, h, 0, allOnes 8⟩
def oString (acc : Acc) (n : Nat) (h : Home) : Obj := ⟨11, acc, n, h, 0, 0⟩
def oDomain (acc : Acc) (n : Nat) (h : Home) : Obj := ⟨12, acc, n, h, 0, 0⟩
def oTime (acc : Acc) (h : Home) : Obj := ⟨13, acc, 8, h, 0, allOnes 8⟩

/-- An object with a range. -/
def Obj.within (o : Obj) (lo hi : Nat) : Obj := { o with lo := lo, hi := hi }

/-- n read-only U32 objects over consecutive registers, at subindexes k, k + 1, … . -/
def roWords (k a n : Nat) : List (Nat × Obj) := (List.range n).map (fun i => (k + i, oU32 .ro (.regs (a + 4 * i))))

/-- n read-only U32 objects with a rule of their own. -/
def roOwn (k n : Nat) : List (Nat × Obj) := (List.range n).map (fun i => (k + i, oU32 .ro .own))

/-- Identity, versions and stores: 0x1000 to 0x1FFF. -/
def objects1 (i : Nat) : List (Nat × Obj) :=
  match i with
  | 0x1000 => [(0, oU32 .const (.regs Reg.SYS_PARTID))]
  | 0x1001 => [(0, oU8 .const (.bits Reg.FUSE_LIFECYCLE 0 8))]
  | 0x1002 => [(0, oDomain .const 96 (.regs (Reg.SEC_IDPUB 0)))]
  | 0x1003 => [(0, oDomain .const 48 .own)]
  | 0x1008 => roWords 1 Reg.SYS_FWVER 3 ++ [(4, oU32 .rw (.regs Reg.SYS_HOSTVER))]
  | 0x1009 => (List.range 4).map (fun k => (k + 1, oU16 .ro .own))
  | 0x1010 => [(0, oString .rws 64 (.value []))]
  | 0x1011 => [(0, oString .once 32 .own)]
  | 0x1018 => [(1, oDomain .wo 32 .own), (2, oDomain .ro 640 .own)]
  | 0x1020 => roWords 0 Reg.SEC_BOOTINFO 1
  | 0x1021 => roWords 1 Reg.RST_CAUSE 3
  | 0x1022 => [(0, oTime .ro (.regs Reg.TBS_TIME_LO))]
  | 0x1F00 => [(1, oU32 .wo .own), (2, oU32 .wo .own)]
  | 0x1F01 => roOwn 1 3
  | 0x1F02 => [(0, (oU8 .wo .own).within 1 2)]
  | 0x1F03 => [(0, oDomain .ro 65536 .own)]
  | _ => []

/-- Store and stream configuration: 0x2000 to 0x22FF. -/
def objects2 (i : Nat) : List (Nat × Obj) :=
  match i with
  | 0x2000 => (List.range 2).map (fun p => (p + 1, oU64 .rws (.regs (Reg.NET_MAC_LO p))))
  | 0x2001 => (List.range 2).map (fun p => (p + 1, oU64 .rws (.regs (Reg.NET_MCHASH_LO p))))
  | 0x2002 => (List.range 2).map (fun p => (p + 1, oBool .rws (.bits (Reg.NET_CTRL p) 0 1)))
  | 0x2003 => (List.range 2).map (fun p => (p + 1, oU32 .rws (.regs (Reg.NET_SWQ_CFG p))))
  | 0x2010 => (List.range 8).map (fun k => (k + 1, oU64 .rws .own))
  | 0x2011 => [(1, (oU16 .rws (.bits Reg.DMC_PAGE 0 12)).within 0 4095), (2, oU16 .rws (.bits Reg.DMC_PD 0 16))]
  | _ =>
    if 0x2100 ≤ i ∧ i < 0x2300 then
      [(1, oDomain .rws 64 .own), (2, oBool .rws .own), (3, oDomain .ro 16 (.regs (Reg.NET_SSTAT (i - 0x2100) 0)))]
    else []

/-- Weave control: 0x3000 to 0x3030. -/
def objects3 (i : Nat) : List (Nat × Obj) :=
  match i with
  | 0x3000 => [(0, (oU8 .wo .own).within 0 15)]
  | 0x3001 => roWords 0 Reg.WV_STATUS 1
  | 0x3002 => [(0, oU64 .rw (.regs Reg.WV_IMG_LO))]
  | 0x3003 => [(0, oU64 .rw (.regs Reg.WV_START_LO))]
  | 0x3004 => [(0, oU32 .rw (.regs Reg.WV_TICK_BASE))]
  | 0x3005 => roWords 1 Reg.WV_LOAD_ERR 1 ++ roWords 2 Reg.WV_VARIANT 1 ++ roWords 3 Reg.WV_FAULTSET 1 ++ roWords 4 Reg.WV_TICK 1
  | 0x3006 => [(0, oU64 .ro (.regs Reg.WV_PICK_LO))]
  | 0x3007 => [(0, oDomain .ro 32 .own)]
  | 0x3010 => [(0, oDomain .wo 268435456 .own)]
  | 0x3030 => [(1, oDomain .ro 4096 .own), (2, oU32 .rw .own), (3, oU32 .ro .own)]
  | _ => if 0x3020 ≤ i ∧ i < 0x3030 then roWords 1 (Reg.WV_JQ_SUBMIT (i - 0x3020)) 3 else []

/-- Power and thermal: 0x4000 to 0x4012. -/
def objects4 (i : Nat) : List (Nat × Obj) :=
  match i with
  | 0x4000 => [(0, oU8 .rws (.bits Reg.PWR_PROFILE 0 8))]
  | 0x4001 => [(1, (oU8 .rws (.bits Reg.PWR_CTRL 0 1)).within 0 1), (2, (oU8 .rws (.bits Reg.PWR_CTRL 1 1)).within 0 1),
      (3, (oU8 .rws (.bits Reg.PWR_CTRL 2 4)).within 6 10), (4, (oU8 .rws (.bits Reg.PWR_CTRL 6 4)).within 0 6)]
  | 0x4002 => [(1, (oU8 .rws (.bits Reg.PWR_THERM 0 8)).within 70 100), (2, oU8 .rws (.bits Reg.PWR_THERM 8 8)),
      (3, (oU8 .rws (.bits Reg.PWR_THERM 16 8)).within 10 40)]
  | 0x4003 => [(1, oU8 .rws (.bits Reg.PWR_FANCURVE 0 8)), (2, oU8 .rws (.bits Reg.PWR_FANCURVE 8 8)),
      (3, (oU8 .rw (.bits Reg.PWR_FAN 8 1)).within 0 1), (4, oU8 .rw (.bits Reg.PWR_FAN 0 8))]
  | 0x4004 => [(0, oU16 .rws (.bits Reg.PWR_UPMARGIN 0 16))]
  | 0x4010 => roWords 1 Reg.PWR_EST 6 ++ roWords 7 Reg.PWR_DIE0 2
  | 0x4011 => (List.range 30).map (fun k => (k + 1, oI16 .ro .own))
  | 0x4012 => [(1, oU16 .ro (.bits Reg.PWR_TACH 0 16)), (2, oU32 .ro (.regs Reg.PWR_STATUS))]
  | _ => []

/-- Resilience, ECC and scrub: 0x5000 to 0x5030. -/
def objects5 (i : Nat) : List (Nat × Obj) :=
  match i with
  | 0x5000 => [(1, (oU16 .rws (.value [0, 8])).within 0 3000), (2, oU32 .ro .own), (3, oDomain .ro 48 .own)]
  | 0x5001 => [(1, oU64 .rw (.regs Reg.SCRB_START_LO)), (2, oU64 .rw (.regs Reg.SCRB_LEN_LO)), (3, (oU64 .rw (.bits Reg.SCRB_RATE 0 32)).within 0 (allOnes 4)),
      (4, (oU8 .wo .own).within 1 2), (5, oDomain .ro 48 .own)]
  | 0x5002 => roOwn 1 5
  | 0x5003 => [(0, oDomain .ro 8192 .own)]
  | 0x5004 => [(0, oDomain .ro 131072 .own)]
  | 0x5005 => [(1, oU16 .ro (.bits Reg.RAS_REPAIR 0 12)), (2, oDomain .ro 32768 .own)]
  | 0x5006 => [(0, oDomain .ro 128 .own)]
  | 0x5020 => roWords 1 Reg.RAS_HEDGE 1
  | 0x5030 => roOwn 1 1
  | _ => if 0x5010 ≤ i ∧ i < 0x5020 then roOwn 1 2 ++ roWords 3 (Reg.DCH_STATUS (i - 0x5010)) 1 else []

/-- Boot and firmware: 0x6000 to 0x6200. -/
def objects6 (i : Nat) : List (Nat × Obj) :=
  match i with
  | 0x6000 => [(1, oDomain .wo 268435456 .own)]
  | 0x6001 => [(0, (oU8 .wo .own).within 1 3)]
  | 0x6002 => (List.range 3).map (fun k => (k + 1, oU8 .ro .own))
  | 0x6003 => roWords 0 Reg.SEC_HANDOVER 1
  | 0x6100 => (List.range 4).map (fun k => (k + 1, oDomain .rws 48 (.value [])))
  | 0x6200 => [(0, oDomain .rw 1769472 .own)]
  | _ => []

/-- Telemetry: 0x7000 to 0x73FF. -/
def objects7 (i : Nat) : List (Nat × Obj) :=
  match i with
  | 0x7000 => [(1, oU32 .ro .own), (2, oU64 .ro .own), (3, oU64 .ro .own), (4, oU64 .ro .own)] ++ roOwn 5 2
  | 0x7001 => roOwn 1 5
  | 0x7002 => roOwn 1 2
  | 0x7003 => roOwn 1 11
  | 0x7004 => roOwn 1 11
  | 0x70FF => [(0, oDomain .ro 1024 .own)]
  | _ =>
    if 0x7005 ≤ i ∧ i ≤ 0x7008 then roOwn 1 6
    else if 0x7100 ≤ i ∧ i < 0x7200 then roOwn 1 2
    else if 0x7200 ≤ i ∧ i < 0x7400 then roOwn 1 4
    else []

/-- Pixel ports and ISP: 0x8000 to 0x8023. -/
def objects8 (i : Nat) : List (Nat × Obj) :=
  if 0x8000 ≤ i ∧ i < 0x8004 then
    let n := i - 0x8000
    (List.range 6).map (fun k => (k + 1, oU32 .rws (.regs (Reg.PIX_CFG n + 4 * k)))) ++
      [(7, oBool .rws (.bits (Reg.PIX_CTRL n) 0 1)), (8, oU32 .ro (.regs (Reg.PIX_STATUS n)))]
  else if 0x8010 ≤ i ∧ i < 0x8014 then
    let n := i - 0x8010
    [(1, oDomain .rws 104 .own), (2, oDomain .rws 2312 (.regs (Reg.ISP_LSC0 (1024 * n)))), (3, oDomain .rws 258 .own),
      (4, (oU8 .wo .own).within 1 1), (5, oU32 .ro (.regs (Reg.ISP_CTX_GEN n)))]
  else if 0x8020 ≤ i ∧ i < 0x8024 then [(0, oDomain .ro 3136 .own)]
  else []

/-- Network: 0x9000 to 0x9006. -/
def objects9 (i : Nat) : List (Nat × Obj) :=
  match i with
  | 0x9000 => [(1, oU64 .rws (.regs Reg.MNET_MAC_LO)), (2, oU32 .ro (.regs Reg.MNET_STATUS))]
  | 0x9001 => (1, (oU8 .rws (.value [0])).within 0 2) :: (List.range 3).map (fun k => (k + 2, oU32 .rws (.value [0, 0, 0, 0])))
  | 0x9002 => [(1, (oU8 .rws (.value [0])).within 0 2), (2, oDomain .rws 17 (.value (List.replicate 17 0))), (3, oDomain .ro 64 .own)]
  | 0x9003 => [(0, oU16 .rws (.value [0xC0, 0xC1]))]
  | 0x9004 => [(1, (oU8 .rws (.value [0])).within 0 3), (2, oU8 .rws (.value [0])), (3, oU8 .ro .own), (4, oI64 .ro .own)]
  | 0x9005 => roOwn 1 4
  | 0x9006 => [(1, oU8 .ro .own)]
  | _ => []

/-- The objects of an index, by subindex; none where the index does not exist (R476, R477). -/
def objectsAt (i : Nat) : List (Nat × Obj) :=
  match i / 0x1000 with
  | 1 => objects1 i
  | 2 => objects2 i
  | 3 => objects3 i
  | 4 => objects4 i
  | 5 => objects5 i
  | 6 => objects6 i
  | 7 => objects7 i
  | 8 => objects8 i
  | 9 => objects9 i
  | _ => []

/-- Highest subindex of an index. -/
def topSub (i : Nat) : Nat := (objectsAt i).foldl (fun n o => max n o.1) 0

/-- What an index and subindex name: nothing at that index, no such subindex, or an object. Subindex 0 of an object with subindexes is
the highest of them. -/
inductive Lookup where
  | noIndex
  | noSub
  | found (o : Obj)
  deriving DecidableEq, Repr

/-- Finds an object. -/
def lookupObj (i sub : Nat) : Lookup :=
  let os := objectsAt i
  if os.isEmpty then .noIndex
  else match os.find? (fun e => e.1 == sub) with
    | some e => .found e.2
    | none => if sub = 0 then .found (oU8 .const (.value [topSub i])) else .noSub

/-- Indices with objects that a store keeps, rising. -/
def rwsIndices : List Nat :=
  [0x1010, 0x2000, 0x2001, 0x2002, 0x2003, 0x2010, 0x2011] ++ (List.range 512).map (· + 0x2100) ++
    [0x4000, 0x4001, 0x4002, 0x4003, 0x4004, 0x5000, 0x6100] ++ [0x8000, 0x8001, 0x8002, 0x8003, 0x8010, 0x8011, 0x8012, 0x8013] ++
    [0x9000, 0x9001, 0x9002, 0x9003, 0x9004]

/-- A value outside an object's range (R465); object 0x4000 takes 45, 60 and 90. -/
def outOfRange (i : Nat) (o : Obj) (v : Nat) : Bool :=
  if o.type = 11 ∨ o.type = 12 then false
  else if i = 0x4000 then v != 45 && v != 60 && v != 90
  else decide (v < o.lo) || decide (o.hi < v)

/-- A length that the type does not take: exactly the size, or at most the maximum of a STRING or DOMAIN. -/
def badLength (o : Obj) (n : Nat) : Bool := if o.type = 11 ∨ o.type = 12 then decide (o.size < n) else n != o.size

/-- Objects whose segments are written to their destination as they arrive (R461). -/
def streamed (i : Nat) : Bool := i == 0x3010 || i == 0x6000 || i == 0x6200

end Sys2Proof.Machine
end

