-- ==== Sys2Proof/Machine/ObjRead.lean ====
section
/-! DEFINITION. Reading objects of the object dictionary (18_object_dictionary.md R459, R475, R476, R478). -/

namespace Sys2Proof.Machine

/-- An abort code, or a value read and the state after the read. -/
abbrev ReadResult := Nat × List Nat × State

/-- A value. -/
def State.gives (s : State) (bs : List Nat) : ReadResult := (0, bs, s)

/-- A value that the specification does not state. -/
def State.givesFree (s : State) (n : Nat) : ReadResult :=
  let r := s.freeBytes n
  (0, r.1, r.2)

/-- A register as the steward reads it. -/
def State.stewardReg (s : State) (a : Nat) : Nat := if s.heldAt a then 0 else s.liveReg a 0x61

/-- n bytes of consecutive registers. -/
def State.stewardBytes (s : State) (a n : Nat) : List Nat :=
  ((List.range ((n + 3) / 4)).flatMap (fun i => leBytes 4 (s.stewardReg (a + 4 * i)))).take n

/-- PTP: with a port chosen, its state is a free value (assumption 52). -/
def State.ptpState (s : State) : Nat × State :=
  if (s.objVal 0x9004 1).getD [0] = [0] then (0, s)
  else
    let r := s.free 2
    (1 + r.1 % 3, r.2)

/-- Identity and store objects. -/
def State.read1 (s : State) (i sub : Nat) : ReadResult :=
  if i = 0x1003 then s.gives (sha384 (s.regBytes (Reg.SEC_IDPUB 0) 96))
  else if i = 0x1009 then s.gives (leBytes 2 (s.boot.svns.getD (sub - 1) 0))
  else if i = 0x1011 then s.gives (match valueIn s.onceRecord.1 0x1011 0 with | some e => e.value | none => [])
  else if i = 0x1018 then
    (if s.boot.attesting then (0x08000023, [], s)
     else match s.boot.report with
      | some r => s.gives r
      | none => (0x08000026, [], s))
  else if i = 0x1F01 then
    (if sub = 1 then s.gives (leBytes 4 (match s.storedRecord.1 with | some r => recordGen r | none => 0))
     else if sub = 2 then s.gives (leBytes 4 s.dict.stores.length)
     else s.gives (leBytes 4 s.dict.genWritten))
  else s.gives (s.storedRecord.1.getD [])

/-- Base and read index of the hedge ring: the next 64 records from a session's index on, and the index after them; an overwritten
record is skipped. -/
def State.hedgeRead (s : State) (rd : Nat) : List Nat × Nat :=
  let wp := s.regN (Reg.RING_WP 255)
  let base := s.reg64 (Reg.RING_BASE_LO 255) % 2 ^ 40
  let from_ := max (min rd wp) (wp - 4096)
  let n := min 64 (wp - from_)
  ((List.range n).flatMap (fun k => s.bytes (base + 64 * ((from_ + k) % 4096)) 64), from_ + n)

/-- Stream and weave objects. -/
def State.read23 (s : State) (k i sub : Nat) : ReadResult :=
  if i = 0x2010 then s.gives (leBytes 8 (s.nextMask (sub - 1)))
  else if 0x2100 ≤ i ∧ i < 0x2300 then
    (if sub = 1 then s.gives (s.stewardBytes (streamWord (i - 0x2100) 0) 64)
     else s.gives [if s.streamOn (i - 0x2100) then 1 else 0])
  else if i = 0x3007 then s.gives (s.stewardBytes (Reg.CLU_THRREP (s.fld Reg.WV_LOAD_ERR 16 6 / 8) 0) 32)
  else if sub = 3 then s.gives (leBytes 4 (s.regN (Reg.RING_WP 255)))
  else match s.session k with
    | none => s.gives []
    | some q =>
      if sub = 2 then s.gives (leBytes 4 q.ring)
      else
        let r := s.hedgeRead q.ring
        (0, r.1, s.setSession k (some { q with ring := r.2 }))

/-- Repair log entries in their layout (14 Table, Repair log entry). -/
def repairBytes (e : RepairEntry) : List Nat := [e.kind % 256, e.unit % 256] ++ leBytes 2 e.mac ++ leBytes 2 e.index ++ [0, 0] ++ leBytes 8 e.time

/-- Temperature and resilience objects. The background pass and the patrols have no command of their own: their reports are free values. -/
def State.read45 (s : State) (i sub : Nat) : ReadResult :=
  if i = 0x4011 then
    let v := s.stewardReg (Reg.PWR_TEMP (sub - 1))
    s.gives (leBytes 2 (if v.testBit 12 then (if v % 4096 < 2048 then v % 4096 else v % 4096 + 0xF000) else 0x8000))
  else if i = 0x5000 then s.givesFree (if sub = 2 then 4 else 48)
  else if i = 0x5001 then
    s.gives (leBytes 8 (s.reg64 Reg.SCRB_SUM_BYTES_LO) ++ leBytes 8 (s.regN Reg.SCRB_SUM_CE) ++ leBytes 8 (s.regN Reg.SCRB_SUM_UE) ++
      leBytes 8 (s.reg64 Reg.SCRB_SUM_FIRST_LO) ++ leBytes 8 (s.reg64 Reg.SCRB_SUM_LAST_LO) ++ leBytes 4 (s.regN Reg.SCRB_SUM_TIME) ++
      leBytes 4 (s.regN Reg.SCRB_SUM_STAT))
  else if i = 0x5003 then
    let n := s.fld Reg.RAS_LOG_NEXT 0 8
    s.gives ((List.range 256).flatMap (fun k => s.stewardBytes (logWord ((n + k) % 256) 0) 32))
  else if i = 0x5004 then s.gives s.hist.reverse.flatten
  else if i = 0x5005 then s.gives (s.dram.applied.flatMap repairBytes)
  else if i = 0x5006 then
    let r := s.freeBytes 48
    (0, r.1 ++ List.replicate 80 0, r.2)
  else if i = 0x5030 then s.gives (leBytes 4 (s.dict.writes.foldl (fun n e => max n e.2) 0))
  else s.gives (leBytes 4 (s.sumOf i sub))

/-- Boot objects. -/
def State.read6 (s : State) (i sub : Nat) : ReadResult :=
  if i = 0x6002 then
    (if sub = 1 then s.gives [s.boot.active] else if sub = 2 then s.gives [s.boot.pending.getD 0xFF] else s.gives [s.boot.tries])
  else s.gives (s.bytes (nvmBase + 0x650000) 1769472)

/-- Bytes of a telemetry object. -/
def State.telemBytes (s : State) (i sub : Nat) : List Nat := leBytes (if i = 0x7000 ∧ 2 ≤ sub ∧ sub ≤ 4 then 8 else 4) (s.telemOf i sub)

/-- Objects 0x7000 to 0x7005, all from one latch. -/
def State.telemSnapshot (s : State) : List Nat :=
  (List.range 6).flatMap (fun k => (List.range (topSub (0x7000 + k))).flatMap (fun j => s.telemBytes (0x7000 + k) (j + 1)))

/-- ISP and network objects. -/
def State.read89 (s : State) (i sub : Nat) : ReadResult :=
  if 0x8010 ≤ i ∧ i < 0x8014 then
    let n := i - 0x8010
    (if sub = 1 then s.gives (s.stewardBytes (Reg.ISP_CTX_CTRL n) 104)
     else s.gives ((List.range 129).flatMap (fun e => leBytes 2 (s.stewardReg (Reg.ISP_GAMMA0 (256 * n + e))))))
  else if 0x8020 ≤ i ∧ i < 0x8024 then
    let h := Tbl.get (fun _ => []) s.vdec.handles (0x400 + (i - 0x8020))
    let a := leVal ((h.drop 84).take 8)
    (if h = [] ∨ a = 0 then (0x08000026, [], s) else s.gives (s.bytes a 3136))
  else if i = 0x9002 then s.givesFree 64
  else if i = 0x9004 then
    let r := s.ptpState
    (if sub = 3 then (0, [r.1], r.2) else if r.1 = 0 then r.2.gives (leBytes 8 0) else r.2.givesFree 8)
  else if i = 0x9005 then s.gives (leBytes 4 (s.sumOf i sub))
  else s.gives [((List.range 8).filter (fun n => (s.session n).isSome)).length]

/-- The value of an object with a rule of its own, for session k. -/
def State.readOwn (s : State) (k i sub : Nat) : ReadResult :=
  match i / 0x1000 with
  | 1 => s.read1 i sub
  | 2 => s.read23 k i sub
  | 3 => s.read23 k i sub
  | 4 => s.read45 i sub
  | 5 => s.read45 i sub
  | 6 => s.read6 i sub
  | 7 => if i = 0x70FF then s.gives s.telemSnapshot else s.gives (s.telemBytes i sub)
  | _ => s.read89 i sub

/-- The value of an object. -/
def State.readObj (s : State) (k i sub : Nat) (o : Obj) : ReadResult :=
  match o.home with
  | .regs a => s.gives (s.stewardBytes a o.size)
  | .bits a lo w => s.gives (leBytes o.size (field (s.stewardReg a) lo w))
  | .value d => s.gives ((s.objVal i sub).getD d)
  | .own => s.readOwn k i sub

/-- READ of an index and subindex (R466, R478): an abort code, or the value. -/
def State.odGet (s : State) (k i sub : Nat) : ReadResult :=
  match lookupObj i sub with
  | .noIndex => (0x06020000, [], s)
  | .noSub => (0x06090011, [], s)
  | .found o => if o.acc = .wo then (0x06010001, [], s) else s.readObj k i sub o

/-- Every value of a store: the RWS objects, in rising order (R468). -/
def State.rwsValues (s : State) : List StoredValue :=
  rwsIndices.flatMap (fun i => (objectsAt i).filterMap (fun e =>
    if e.2.acc = .rws then some { index := i, sub := e.1, type := e.2.type, value := (s.readObj 8 i e.1 e.2).2.1 } else none))

end Sys2Proof.Machine
end

