-- ==== Sys2Proof/Machine/ObjWrite.lean ====
section
/-! DEFINITION. Writing objects of the object dictionary, stores, and the firmware objects (18_object_dictionary.md R461, R465 to R474,
R478; 17 R439, R446, R449, R451). -/

namespace Sys2Proof.Machine

/-- An abort code, 0 for success, and the state. -/
abbrev WriteResult := Nat × State

/-! ### Register writes of the steward (R459, R467) -/

/-- The rej bit of the block that holds the register at a. -/
def rejBit (a : Nat) : Option (Nat × Nat) :=
  if 0x1200000000 ≤ a ∧ a < 0x1210000000 then
    match (a - 0x1200000000) / 0x100000 with
    | 0x00 => some (Reg.SYS_MEMSTAT, 0)
    | 0x01 => some (Reg.RST_STATUS, 0)
    | 0x03 => some (Reg.PWR_STATUS, 4)
    | 0x06 => some (Reg.SEC_STATUS, 2)
    | 0x08 => some (Reg.DMC_STAT, 0)
    | 0x28 => some (Reg.PIX_STATUS 0, 2)
    | 0x29 => some (Reg.PIX_STATUS 1, 2)
    | 0x2A => some (Reg.PIX_STATUS 2, 2)
    | 0x2B => some (Reg.PIX_STATUS 3, 2)
    | 0x2C => some (Reg.ISP_IRQ_STATUS, 3)
    | 0x30 => some (Reg.NET_STAT 0, 0)
    | 0x31 => some (Reg.NET_STAT 1, 0)
    | 0x40 => some (Reg.WV_IRQ_STATUS, 10)
    | 0x48 => some (Reg.SCRB_STATUS, 2)
    | _ => none
  else none

/-- A register write of the steward, and its answer: locked, refused with a rej bit, a bus error, or success. -/
def State.regPut (s : State) (a v : Nat) : WriteResult :=
  match s.place a 4 with
  | .reg h =>
    let locked := s.hasLocked h || (a == Reg.WV_CTRL && s.bit Reg.WV_CTRL 8 && (v == 1 || v == 3 || v == 4 || v == 5))
    match rejBit h with
    | none => (if locked then 0x08000021 else 0, s.regWrite h v 0x61)
    | some (r, i) =>
      let t := (s.putBit r i false).regWrite h v 0x61
      (if locked then 0x08000021 else if t.bit r i then 0x08000022 else 0, t.stickyIf (s.bit r i) r i)
  | _ => (0x08000028, s.busError a 0x61 true)

/-- Writes of consecutive registers, up to the first that fails. -/
def State.regPuts (s : State) (a : Nat) : List Nat → WriteResult
  | [] => (0, s)
  | v :: vs =>
    let r := s.regPut a v
    if r.1 = 0 then r.2.regPuts (a + 4) vs else r

/-- The 32-bit words of a byte string; bytes that do not fill a word are left out. -/
def regWords (bs : List Nat) : List Nat := (List.range (bs.length / 4)).map (fun i => leVal ((bs.drop (4 * i)).take 4))

/-- A write of one field of a register: its other fields keep their values, and W1C bits are written 0. -/
def State.fieldPut (s : State) (a lo w v : Nat) : WriteResult :=
  let keep := match Reg.rowOf a with
    | some r => andNot (s.regN a) r.w1c
    | none => s.regN a
  s.regPut a (putField keep lo w v)

/-! ### Stores (R468 to R472) -/

/-- A snapshot joins the stores that wait; of those that do not yet run, only the newest of each kind stays. -/
def State.queueStore (s : State) (q : StoreReq) : State :=
  let keep := s.dict.stores.take 1 ++ (s.dict.stores.drop 1).filter (fun r => r.defaults != q.defaults)
  { s with dict := { s.dict with stores := keep ++ [q] } }

/-- The value of every RWS object is snapshotted; a record that is too large is not written. -/
def State.storeNow (s : State) : State :=
  let r := makeRecord 0 (s.regN Reg.SYS_FWVER) s.time s.rwsValues
  if 65536 < r.length then s.logEvent 0x604 2 0x51 2 0 else s.queueStore { record := r, defaults := false }

/-- STORE. -/
def execStore (s : State) : Out := .next s.storeNow

/-- A record without values waits to be written. -/
def State.restoreNow (s : State) : State :=
  s.queueStore { record := makeRecord 0 (s.regN Reg.SYS_FWVER) s.time [], defaults := true }

/-- RESTORE_DEFAULTS. -/
def execRestoreDefaults (s : State) : Out := .next s.restoreNow

/-- A write of record slot i. -/
def State.writeSlot (s : State) (i : Nat) (bs : List Nat) : State :=
  let s1 := s.setBytes (dictSlot i) bs
  { s1 with dict := { s1.dict with writes := Tbl.set (fun _ => 0) s1.dict.writes i (Tbl.get (fun _ => 0) s1.dict.writes i + 1) } }

/-- Extends SEC_MEAS6 with a record. -/
def State.measureStore (s : State) (r : List Nat) : State := s.extend 6 (sha384 r)

/-- STORE_WRITTEN: the oldest waiting record has been written to two slots; after an NVM error the first of them holds free values. -/
def execStoreWritten (err : Bool) (s : State) : Out :=
  .next (match s.dict.stores with
    | [] => s
    | q :: more =>
      let gen := s.dict.genWritten + 1
      let r := regenRecord gen q.record
      let i := (s.dict.slot + 1) % 31
      let s1 := { s with dict := { s.dict with stores := more } }
      if err then
        let f := s1.freeBytes r.length
        (f.2.writeSlot i f.1).logEvent 0x604 2 0x51 1 0
      else
        let s2 := (s1.writeSlot i r).writeSlot ((i + 1) % 31) r
        let s3 := { s2 with dict := { s2.dict with slot := (i + 1) % 31, genWritten := gen, genInForce := gen } }
        (s3.measureStore r).logEvent (if q.defaults then 0x605 else 0x603) 0 0x51 gen 0)

/-- The first write of an ONCE object stores it at once, in the half of slot 31 that is not in force. -/
def State.onceWrite (s : State) (i sub type : Nat) (v : List Nat) : WriteResult :=
  if (valueIn s.onceRecord.1 i sub).isSome then (0x08000021, s)
  else
    let gen := s.dict.onceGen + 1
    let old := match s.onceRecord.1 with
      | some r => entriesOf r
      | none => []
    let r := makeRecord gen (s.regN Reg.SYS_FWVER) s.time (old ++ [{ index := i, sub := sub, type := type, value := v }])
    (0, { s.setBytes (dictSlot 31 + gen % 2 * 0x8000) r with dict := { s.dict with onceGen := gen } })

/-! ### Resets (R474) -/

/-- An L1 or L2 reset is requested. -/
def State.odResetRequest (s : State) (l : Nat) : State := { s with rst := { s.rst with dictLevel := some l } }

/-- OD_RESET. -/
def execOdReset (l : BitVec 8) (s : State) : Out := .next (if l = 1 ∨ l = 2 then s.odResetRequest l.toNat else s)

/-- OD_RESET_DELAY_EXPIRY: the steward writes RST_SRCREQ.dict; in SERVICE it then performs the level through RST_CTRL. -/
def execOdResetDelayExpiry (s : State) : Out :=
  .next (match s.rst.dictLevel with
    | none => s
    | some l =>
      let s1 := { s with rst := { s.rst with dictLevel := none } }
      let s2 := s1.raise 6
      if s.bit Reg.RST_REGIME 0 then s2.rstCtrlWrite (l + 256) 0x61 else s2)

/-! ### Firmware (17 R439, R449, R451) -/

/-- Source code of the flash device that holds the slots: the one the part booted from, else SPI NOR. -/
def State.flashSource (s : State) : Nat := if s.fld Reg.SEC_BOOTINFO 0 3 = 2 then 2 else 1

/-- Key of a slot of that device. -/
def State.slotKey (s : State) (slot : Nat) : Nat := 4 * s.flashSource + slot

/-- The bytes that the steward has written to a slot. -/
def State.slotWritten (s : State) (slot : Nat) : List Nat := Tbl.get (fun _ => []) s.boot.slots (s.slotKey slot)

/-- The slot that is neither active nor golden takes bytes at an offset; the first byte begins a new image. -/
def State.slotPut (s : State) (off : Nat) (bs : List Nat) : State :=
  let slot := 1 - s.boot.active
  { s with boot := { s.boot with slots := Tbl.set (fun _ => []) s.boot.slots (s.slotKey slot) ((s.slotWritten slot).take off ++ bs) } }

/-- The images of a slot are complete: steward firmware first, then threader, application-core firmware and hedge image in that order,
each accepted. -/
def State.slotOk (s : State) (ims : List FwImage) : Bool :=
  let rank := fun (t : Nat) => if t = 1 then 0 else if t = 3 then 1 else if t = 2 then 2 else 3
  let ts := ims.map (fun im => rank (manType im.manifest))
  (ts.head? == some 0) && (ts.zip (ts.drop 1)).all (fun e => decide (e.1 < e.2)) && ims.all s.imageOk

/-- The last segment of a slot image has arrived: each manifest is checked, and the slot is set pending. -/
def State.slotDone (s : State) : WriteResult :=
  let slot := 1 - s.boot.active
  if s.slotOk (slotImages 4 (s.slotWritten slot)) then
    (0, ({ s with boot := { s.boot with pending := some slot, tries := 0 } }).logEvent 0x607 0 0x51 slot 0)
  else (0x08000025, s)

/-- Images of the pending slot. -/
def State.pendingImages (s : State) : List FwImage :=
  match s.boot.pending with
  | some p => slotImages 4 (s.slotWritten p)
  | none => []

/-- Object 0x6001 value 1: the old image loads the pending slot's steward image into the half it does not occupy and verifies it. -/
def State.updateNow (s : State) : WriteResult :=
  match s.pendingImages with
  | [] => (0x08000022, s)
  | im :: _ =>
    if s.handRefused then (0x08000022, s.sticky Reg.SEC_HANDOVER 4)
    else if s.imageOk im && manType im.manifest == 1 then (0, s.putHalf (1 - s.half) im)
    else (0x08000025, s)

/-- Object 0x6001 value 2: the pending slot's threader is verified, measured and made active. -/
def State.threaderNow (s : State) : WriteResult :=
  match s.pendingImages.find? (fun im => manType im.manifest == 3) with
  | none => (0x08000022, s)
  | some im =>
    if s.imageOk im then
      let s1 := (s.extend 2 (manDigest im.manifest)).setRegN Reg.SYS_THRVER (manVersion im.manifest)
      (0, { s1 with boot := { s1.boot with svns := s1.boot.svns.set 1 (manSvn im.manifest) } })
    else (0x08000025, s)

/-- Object 0x6001 value 3: no slot is pending. -/
def State.clearPendingNow (s : State) : State := { s with boot := { s.boot with pending := none, tries := 0 } }

/-- What the last access gave its requester: success, or an abort code. -/
def State.answerCode (r : WriteResult) : State := r.2.answer (if r.1 = 0 then .done else .abort r.1)

/-- UPDATE_HANDOVER. -/
def execUpdateHandover (s : State) : Out := .next (State.answerCode s.updateNow)

/-- THREADER_ACTIVATE. -/
def execThreaderActivate (s : State) : Out := .next (State.answerCode s.threaderNow)

/-- CLEAR_PENDING. -/
def execClearPending (s : State) : Out := .next (s.clearPendingNow.answer .done)

/-! ### Objects with a rule of their own -/

/-- A range of n bytes lies in usable DRAM and outside every region of a running weave: its image, rings, pools and the descriptor
table. -/
def State.imageRoom (s : State) (a n : Nat) : Bool :=
  let w := s.weaveState
  let used := match s.weave.active with
    | some im =>
      let pools := im.pools.map (fun (p : PoolConf) => (p.base, p.count * p.size))
      let rings := im.variants.flatMap (fun (v : Variant) => v.rings.map (fun (c : RingConf) => (c.base, 64 * 2 ^ c.log2)))
      if w = 4 ∨ w = 6 then [(im.addr, s.le (im.addr + 32) 8), (s.reg64 Reg.SYS_SDT_BASE_LO % 2 ^ 40, 0x40000)] ++ pools ++ rings else []
    | none => []
  decide (a + n ≤ s.dramBytes) && used.all (fun r => !rangesMeet a n r.1 r.2)

/-- A segment of a streamed object reaches its destination: base is the address that the transfer began with. -/
def State.streamPut (s : State) (i base off : Nat) (bs : List Nat) : State :=
  if i = 0x3010 then (if s.chanDead (base + off) then s else (s.setBytes (base + off) bs).healLines ((List.range bs.length).map (fun k => base + off + k)))
  else if i = 0x6000 then s.slotPut off bs
  else s.setBytes (nvmBase + 0x650000 + off) bs

/-- Whether a streamed write of n bytes may begin. -/
def State.streamOpen (s : State) (i n : Nat) : Nat :=
  if i = 0x3010 ∧ s.imageRoom (s.reg64 Reg.WV_IMG_LO % 2 ^ 40) n = false then 0x08000022 else 0

/-- The end of a streamed write. -/
def State.streamDone (s : State) (i : Nat) : WriteResult := if i = 0x6000 then s.slotDone else (0, s)

/-- A streamed object written in one message. -/
def State.streamWhole (s : State) (i : Nat) (bs : List Nat) : WriteResult :=
  let c := s.streamOpen i bs.length
  if c = 0 then (s.streamPut i (s.reg64 Reg.WV_IMG_LO % 2 ^ 40) 0 bs).streamDone i else (c, s)

/-- A nonce starts a report, which the steward lets the security block write into the handover area (assumption 44). -/
def State.nonceWrite (s : State) (bs : List Nat) : WriteResult :=
  if s.boot.attesting then (0x08000022, s)
  else (0, ((s.setRegBytes (Reg.SEC_ATT_NONCE 0) (bs ++ List.replicate (32 - bs.length) 0)).setReg64 Reg.SEC_ATT_ADDR_LO (handoverBase + 4096)).attWrite 1 0x61)

/-- A stream table entry: refused while the stream is enabled; enable is ignored. -/
def State.entryWrite (s : State) (n : Nat) (bs : List Nat) : WriteResult :=
  if s.streamOn n then (0x08000022, s.sticky (Reg.NET_STAT 0) 0)
  else match regWords bs with
    | [] => (0, s)
    | w :: ws => s.regPuts (streamWord n 0) (putField w 16 1 0 :: ws)

/-- Identity and store objects. -/
def State.write1 (s : State) (i sub : Nat) (o : Obj) (bs : List Nat) : WriteResult :=
  let v := leVal bs
  if i = 0x1011 then s.onceWrite i sub o.type bs
  else if i = 0x1018 then s.nonceWrite bs
  else if i = 0x1F00 then
    (if sub = 1 then (if v = 0x53544F52 then (0, s.storeNow) else (0x08000020, s))
     else if v = 0x44454654 then (0, s.restoreNow) else (0x08000020, s))
  else (0, s.odResetRequest v)

/-- Stream and weave objects. -/
def State.write23 (s : State) (k i sub : Nat) (bs : List Nat) : WriteResult :=
  let v := leVal bs
  if i = 0x2010 then (if maskValueOk (sub - 1) v then (0, s.setObjVal i sub bs) else (0x06090030, s))
  else if 0x2100 ≤ i ∧ i < 0x2300 then
    (if sub = 1 then s.entryWrite (i - 0x2100) bs else s.fieldPut (streamWord (i - 0x2100) 0) 16 1 v)
  else if i = 0x3000 then s.regPut Reg.WV_CTRL v
  else if i = 0x3010 then s.streamWhole i bs
  else match s.session k with
    | some q => (0, s.setSession k (some { q with ring := v }))
    | none => (0, s)

/-- Scrub, boot and ISP objects. -/
def State.write568 (s : State) (i sub : Nat) (bs : List Nat) : WriteResult :=
  let v := leVal bs
  if i = 0x5001 then s.regPut Reg.SCRB_CTRL v
  else if i = 0x6001 then (if v = 1 then s.updateNow else if v = 2 then s.threaderNow else (0, s.clearPendingNow))
  else if i = 0x6000 ∨ i = 0x6200 then s.streamWhole i bs
  else
    let n := i - 0x8010
    if sub = 1 then s.regPuts (Reg.ISP_CTX_CTRL n) ((regWords bs).take 24)
    else if sub = 3 then s.regPuts (Reg.ISP_GAMMA0 (256 * n)) ((List.range (bs.length / 2)).map (fun e => leVal ((bs.drop (2 * e)).take 2)))
    else s.regPut (Reg.ISP_CTX_COMMIT n) 1

/-- A write to an object with a rule of its own, by session k. -/
def State.writeOwn (s : State) (k i sub : Nat) (o : Obj) (bs : List Nat) : WriteResult :=
  match i / 0x1000 with
  | 1 => s.write1 i sub o bs
  | 2 => s.write23 k i sub bs
  | 3 => s.write23 k i sub bs
  | _ => s.write568 i sub bs

/-- A write to an object whose length and range are right. -/
def State.writeObj (s : State) (k i sub : Nat) (o : Obj) (bs : List Nat) : WriteResult :=
  match o.home with
  | .regs a => s.regPuts a (regWords bs)
  | .bits a lo w => s.fieldPut a lo w (leVal bs)
  | .value _ => (0, s.setObjVal i sub bs)
  | .own => s.writeOwn k i sub o bs

/-- Whether a write to an index and subindex may begin, and its object (R466, R478). -/
def writeTarget (i sub : Nat) : Nat × Option Obj :=
  match lookupObj i sub with
  | .noIndex => (0x06020000, none)
  | .noSub => (0x06090011, none)
  | .found o => if o.acc = .ro ∨ o.acc = .const then (0x06010002, none) else (0, some o)

/-- WRITE of a whole value (R465, R466, R478). -/
def State.odSet (s : State) (k i sub : Nat) (bs : List Nat) : WriteResult :=
  match writeTarget i sub with
  | (c, none) => (c, s)
  | (_, some o) =>
    if badLength o bs.length then (0x06070010, s)
    else if outOfRange i o (leVal bs) then (0x06090030, s)
    else s.writeObj k i sub o bs

end Sys2Proof.Machine
end

