-- ==== Sys2Proof/Machine/Dict.lean ====
section
/-! DEFINITION. Messages, sessions, transfers and subscriptions of the object dictionary (18_object_dictionary.md R453 to R464, R473,
R478; 19 R498, R499). -/

namespace Sys2Proof.Machine

/-! ### Messages as they arrive (R457) -/

/-- A message from a client. -/
structure Msg where
  service : Nat
  req : Nat
  index : Nat
  sub : Nat
  flags : Nat
  arg : Nat
  data : List Nat
  deriving DecidableEq, Repr

/-- The fields of a message, whatever they hold. -/
def readMsg (bs : List Nat) : Msg :=
  { service := bs.getD 1 0, req := leVal ((bs.drop 2).take 2), index := leVal ((bs.drop 4).take 2), sub := bs.getD 6 0, flags := bs.getD 7 0,
    arg := leVal ((bs.drop 8).take 4), data := bs.drop 16 }

/-- Whether a message is well formed: version 1, a length that matches and is at most 1,024, reserved bits 0, a service that clients
send. -/
def msgOk (bs : List Nat) : Bool :=
  decide (16 ≤ bs.length) && bs.getD 0 0 == 1 && leVal ((bs.drop 12).take 2) == bs.length - 16 && decide (bs.length ≤ 1040) && decide (bs.getD 7 0 < 4) &&
    leVal ((bs.drop 14).take 2) == 0 && (bs.getD 1 0 ∈ [1, 2, 3, 4, 5, 6, 8, 9])

/-- The message that lies in STW_REQ: its header says how long it is. -/
def State.mailboxMsg (s : State) : List Nat :=
  let n := s.fld (Reg.STW_REQ 3) 0 16
  s.regBytes (Reg.STW_REQ 0) (if n ≤ 1024 then 16 + n else 1040)

/-! ### Sessions -/

/-- Changes session k, if it is open. -/
def State.modSession (s : State) (k : Nat) (f : Session → Session) : State :=
  match s.session k with
  | none => s
  | some q => s.setSession k (some (f q))

/-- A message is an ABORT. -/
def isAbort (m : List Nat) : Bool := m.getD 1 0 == 5

/-- The steward answers session k with a message. -/
def State.respond (s : State) (k : Nat) (r : List Nat) : State :=
  (s.sendTo k r).answer (if isAbort r then .abort (leVal ((r.drop 8).take 4)) else .done)

/-- The response to a request is held, with those to the 31 most recent others (R458). -/
def State.holdResponse (s : State) (k req service : Nat) (r : List Nat) : State :=
  s.modSession k (fun q => { q with held := (((req, service), r) :: q.held.filter (fun e => e.1 != (req, service))).take 32 })

/-- A response that session k holds under a key. -/
def State.heldResponse (s : State) (k req service : Nat) : Option (List Nat) :=
  match s.session k with
  | none => none
  | some q => (q.held.find? (fun e => e.1 == (req, service))).map (fun e => e.2)

/-- Holds and sends the response to a message. -/
def State.finish (s : State) (k : Nat) (m : Msg) (r : List Nat) : State := (s.holdResponse k m.req m.service r).respond k r

/-- The ABORT of a message, and the success response to it. -/
def Msg.abort (m : Msg) (code : Nat) : List Nat := abortMsg m.req m.index m.sub code
def Msg.success (m : Msg) (flags arg : Nat) (data : List Nat) : List Nat := mkMsg (m.service + 128) m.req m.index m.sub flags arg data

/-- The response that says whether a write succeeded. -/
def Msg.outcome (m : Msg) (code : Nat) : List Nat := if code = 0 then m.success 0 (if m.service = 4 then m.arg else 0) [] else m.abort code

/-! ### Transfers (R460 to R462) -/

/-- Open transfers of session k. -/
def State.xfersOf (s : State) (k : Nat) : List Transfer :=
  match s.session k with
  | none => []
  | some q => q.xfers

/-- The open transfer of a request in one direction. -/
def State.xferOf (s : State) (k req : Nat) (write : Bool) : Option Transfer := (s.xfersOf k).find? (fun t => t.req == req && t.write == write)

/-- A transfer begins or goes on. -/
def State.putXfer (s : State) (k : Nat) (t : Transfer) : State :=
  s.modSession k (fun q => { q with xfers := q.xfers.filter (fun u => !(u.req == t.req && u.write == t.write)) ++ [t] })

/-- Every transfer of a request ends. -/
def State.endXfer (s : State) (k req : Nat) : State := s.modSession k (fun q => { q with xfers := q.xfers.filter (fun u => u.req != req) })

/-- Segment n of a value. -/
def segOf (v : List Nat) (n : Nat) : List Nat := (v.drop (1024 * n)).take 1024

/-- READ of an object: the whole value, or its segment 0. -/
def State.readMessage (s : State) (k : Nat) (m : Msg) : State :=
  let r := s.odGet k m.index m.sub
  let v := r.2.1
  if r.1 ≠ 0 then r.2.2.finish k m (m.abort r.1)
  else if v.length ≤ 1024 then r.2.2.finish k m (m.success 1 0 v)
  else if 4 ≤ (s.xfersOf k).length then s.finish k m (m.abort 0x05040005)
  else
    let t : Transfer := { req := m.req, index := m.index, sub := m.sub, write := false, data := v, total := v.length, seg := 0 }
    (r.2.2.putXfer k t).finish k m (m.success 2 v.length (segOf v 0))

/-- READ_SEG of an open transfer: the last segment ends it. -/
def State.readSegment (s : State) (k : Nat) (m : Msg) (t : Transfer) : State :=
  if m.arg = 0 ∨ t.total ≤ 1024 * m.arg then s.respond k (m.abort 0x05030000)
  else if t.total ≤ 1024 * (m.arg + 1) then (s.endXfer k m.req).finish k m (m.success 1 m.arg (segOf t.data m.arg))
  else s.respond k (m.success 0 m.arg (segOf t.data m.arg))

/-- READ_SEG without an open transfer: the last segment again, a segment beyond it, or a transfer that timed out. -/
def State.readSegmentLate (s : State) (k : Nat) (m : Msg) : State :=
  match s.heldResponse k m.req 2 with
  | some r => if leVal ((r.drop 8).take 4) = m.arg then s.respond k r else s.respond k (m.abort 0x05030000)
  | none => s.respond k (m.abort 0x05040000)

/-- The code with which a segmented write of n bytes is refused at its segment 0, 0 where it may begin (R478 gives the order). -/
def State.segmentedCode (s : State) (k : Nat) (m : Msg) : Nat :=
  if m.flags ≠ 2 then 0x05040001
  else match writeTarget m.index m.sub with
    | (c, none) => c
    | (_, some o) =>
      if badLength o m.arg then 0x06070010
      else if streamed m.index && s.streamOpen m.index m.arg != 0 then s.streamOpen m.index m.arg
      else if m.data.length ≠ 1024 ∨ m.arg < 1024 then 0x05040002
      else if 4 ≤ (s.xfersOf k).length then 0x05040005
      else 0

/-- WRITE with flags.last = 0: segment 0 of a value. -/
def State.writeFirst (s : State) (k : Nat) (m : Msg) : State :=
  let c := s.segmentedCode k m
  if c ≠ 0 then s.finish k m (m.abort c)
  else
    let base := s.reg64 Reg.WV_IMG_LO % 2 ^ 40
    let st := streamed m.index
    let t : Transfer :=
      { req := m.req, index := m.index, sub := m.sub, write := true, data := if st then leBytes 8 base else m.data, total := m.arg, seg := 0 }
    ((if st then s.streamPut m.index base 0 m.data else s).putXfer k t).finish k m (m.outcome 0)

/-- WRITE. -/
def State.writeMessage (s : State) (k : Nat) (m : Msg) : State :=
  if m.flags % 2 = 0 then s.writeFirst k m
  else
    let r := s.odSet k m.index m.sub m.data
    r.2.finish k m (m.outcome r.1)

/-- The next segment of a write, which is not the last. -/
def State.writeNext (s : State) (k : Nat) (m : Msg) (t : Transfer) : State :=
  let st := streamed t.index
  let s1 := if st then s.streamPut t.index (leVal t.data) (1024 * m.arg) m.data else s
  (s1.putXfer k { t with seg := m.arg, data := if st then t.data else t.data ++ m.data }).respond k (m.outcome 0)

/-- The last segment of a write: the object takes its value. -/
def State.writeLast (s : State) (k : Nat) (m : Msg) (t : Transfer) : State :=
  let s1 := s.endXfer k m.req
  let r := if streamed t.index then (s1.streamPut t.index (leVal t.data) (1024 * m.arg) m.data).streamDone t.index
    else s1.odSet k t.index t.sub (t.data ++ m.data)
  r.2.finish k m (m.outcome r.1)

/-- WRITE_SEG of an open transfer. -/
def State.writeSegment (s : State) (k : Nat) (m : Msg) (t : Transfer) : State :=
  let have_ := 1024 * m.arg + m.data.length
  if m.arg = t.seg then s.respond k (m.outcome 0)
  else if m.arg ≠ t.seg + 1 then (s.endXfer k m.req).finish k m (m.abort 0x05030000)
  else if m.flags % 2 = 1 then
    (if have_ = t.total then s.writeLast k m t else (s.endXfer k m.req).finish k m (m.abort 0x05040002))
  else if m.data.length ≠ 1024 ∨ t.total < have_ then (s.endXfer k m.req).finish k m (m.abort 0x05040002)
  else s.writeNext k m t

/-! ### Subscriptions (R463, R464) -/

/-- Event counter b is the same as a or after it; counters wrap. -/
def notBefore (a b : Nat) : Bool := decide ((b + 2 ^ 32 - a) % 2 ^ 32 < 2 ^ 31)

/-- Counter and class of an entry of the event history. -/
def entryCounter (e : List Nat) : Nat := leVal ((e.drop 8).take 4)
def entryClass (e : List Nat) : Nat := e.getD 14 0

/-- The EVENT of an entry. -/
def eventMsg (lost : Bool) (e : List Nat) : List Nat := mkMsg 7 0 0 0 (if lost then 4 else 0) (entryCounter e) e

/-- The entries that a subscription still has to send: those from its counter on, oldest first; after a gap, the oldest one held
first. -/
def State.dueEvents (s : State) (u : Subscription) : List (List Nat) :=
  let due := s.hist.reverse.filter (fun e => notBefore u.from_ (entryCounter e) && decide (u.cls ≤ entryClass e))
  match u.lost && u.open_.isEmpty, s.hist.reverse with
  | true, e :: _ => e :: due.filter (fun d => entryCounter d != entryCounter e)
  | _, _ => due

/-- Session k sends the events that are due, up to 16 outstanding. -/
def State.pumpSession (s : State) (k : Nat) : State :=
  match s.session k with
  | none => s
  | some q => match q.sub with
    | none => s
    | some u =>
      let es := (s.dueEvents u).take (16 - u.open_.length)
      match es.getLast? with
      | none => s
      | some z =>
        let u1 : Subscription :=
          { u with open_ := u.open_ ++ es.map entryCounter, from_ := (entryCounter z + 1) % 2 ^ 32 }
        let ms := (eventMsg (u.lost && u.open_.isEmpty) (es.getD 0 [])) :: (es.drop 1).map (eventMsg false)
        ms.foldl (fun t m => t.sendTo k m) (s.setSession k (some { q with sub := some u1 }))

/-- Every session sends the events that are due. -/
def State.pumpEvents (s : State) : State := (List.range 9).foldl State.pumpSession s

/-- The subscription that SUBSCRIBE starts. -/
def State.subscription (s : State) (cls arg : Nat) : Subscription :=
  let first := if arg = 0xFFFFFFFF then (s.events + 1) % 2 ^ 32 else arg
  let lost := match s.hist.getLast? with
    | some e => arg != 0xFFFFFFFF && !notBefore (entryCounter e) arg
    | none => false
  { cls := cls, open_ := [], from_ := first, repeats := 0, lost := lost }

/-- SUBSCRIBE. -/
def State.subscribeMessage (s : State) (k : Nat) (m : Msg) : State :=
  match m.data with
  | [c] =>
    if c = 0xFF then (s.modSession k (fun q => { q with sub := none })).finish k m (m.success 0 0 [])
    else if c ≤ 3 then (s.modSession k (fun q => { q with sub := some (s.subscription c m.arg) })).finish k m (m.success 0 0 [])
    else s.finish k m (m.abort 0x06090030)
  | _ => s.finish k m (m.abort 0x06070010)

/-- EVENT_ACK: events up to a counter are acknowledged. -/
def State.ackEvents (s : State) (k : Nat) (arg : Nat) : State :=
  s.modSession k (fun q => match q.sub with
    | none => q
    | some u =>
      let left := u.open_.filter (fun c => !notBefore c arg)
      let some_ := decide (left.length < u.open_.length)
      { q with sub := some { u with open_ := left, repeats := if some_ then 0 else u.repeats, lost := u.lost && !some_ } })

/-! ### The intake (R453, R457 to R459, R473, R499) -/

/-- Nothing has been sent by this command yet. -/
def State.unsent (s : State) : State := { s with dict := { s.dict with sent := [] } }

/-- The steward takes a message of session k: one that is not well formed is answered with ABORT 0x0504_0001. -/
def State.takeMsg (s : State) (k service : Nat) (bs : List Nat) (f : State → Msg → State) : State :=
  let m := readMsg bs
  if msgOk bs = false then (s.respond k (m.abort 0x05040001)).pumpEvents
  else if m.service = service then (f s m).pumpEvents
  else s

/-- A message of session k reaches the steward, through the network or the mailbox. A closed session, and a handover between its steps
3 and 5, leave a network message unanswered; the mailbox holds its message meanwhile. -/
def State.odTake (s : State) (k service : Nat) (msg : List (BitVec 8)) (f : State → Msg → State) : State :=
  let bs := msg.map (fun b => b.toNat)
  let s0 := s.unsent
  let paused := s.bit Reg.STW_STATUS 3
  if k = 8 then
    if (s.session 8).isNone ∨ s.bit Reg.STW_STATUS 0 = false ∨ paused ∨ bs ≠ s.mailboxMsg then s
    else if msgOk bs ∧ (readMsg bs).service ≠ service then s
    else (s0.putBit Reg.STW_STATUS 0 false).takeMsg 8 service bs f
  else if (s.session k).isNone ∨ paused then s0.answer .dropped
  else s0.takeMsg k service bs f

/-- A request that repeats a held key gets the held response; another one is executed. -/
def orHeld (k : Nat) (f : State → Msg → State) (s : State) (m : Msg) : State :=
  match s.heldResponse k m.req m.service with
  | some r => s.respond k r
  | none => f s m

/-- OD_READ. -/
def execOdRead (k : Fin 9) (msg : List (BitVec 8)) (s : State) : Out :=
  .next (s.odTake k.val 1 msg (orHeld k.val (fun t m => t.readMessage k.val m)))

/-- OD_READ_SEG. -/
def execOdReadSeg (k : Fin 9) (msg : List (BitVec 8)) (s : State) : Out :=
  .next (s.odTake k.val 2 msg (fun t m => match t.xferOf k.val m.req false with
    | some x => t.readSegment k.val m x
    | none => t.readSegmentLate k.val m))

/-- OD_WRITE. -/
def execOdWrite (k : Fin 9) (msg : List (BitVec 8)) (s : State) : Out :=
  .next (s.odTake k.val 3 msg (orHeld k.val (fun t m => t.writeMessage k.val m)))

/-- OD_WRITE_SEG. -/
def execOdWriteSeg (k : Fin 9) (msg : List (BitVec 8)) (s : State) : Out :=
  .next (s.odTake k.val 4 msg (fun t m => match t.xferOf k.val m.req true with
    | some x => t.writeSegment k.val m x
    | none => orHeld k.val (fun u n => u.respond k.val (n.abort 0x05040000)) t m))

/-- OD_ABORT: the transfer of the request ends; no answer. -/
def execOdAbort (k : Fin 9) (msg : List (BitVec 8)) (s : State) : Out :=
  .next (s.odTake k.val 5 msg (fun t m => (t.endXfer k.val m.req).answer .done))

/-- OD_SUBSCRIBE. -/
def execOdSubscribe (k : Fin 9) (msg : List (BitVec 8)) (s : State) : Out :=
  .next (s.odTake k.val 6 msg (orHeld k.val (fun t m => t.subscribeMessage k.val m)))

/-- OD_EVENT_ACK: no answer. -/
def execOdEventAck (k : Fin 9) (msg : List (BitVec 8)) (s : State) : Out :=
  .next (s.odTake k.val 8 msg (fun t m => (t.ackEvents k.val m.arg).answer .done))

/-- OD_PING. -/
def execOdPing (k : Fin 9) (msg : List (BitVec 8)) (s : State) : Out :=
  .next (s.odTake k.val 9 msg (orHeld k.val (fun t m => t.finish k.val m (m.success 0 m.arg []))))

/-! ### Time limits and handshakes -/

/-- The unacknowledged events of session k are sent again; after 30 repetitions without progress the subscription ends. -/
def State.resendEvents (s : State) (k : Nat) : State :=
  match s.session k with
  | none => s
  | some q => match q.sub with
    | none => s
    | some u =>
      if u.open_.isEmpty then s
      else if 30 ≤ u.repeats then s.setSession k (some { q with sub := none })
      else
        let es := s.hist.reverse.filter (fun e => entryCounter e ∈ u.open_)
        let first := u.open_.headD 0
        es.foldl (fun t e => t.sendTo k (eventMsg (u.lost && entryCounter e == first) e)) (s.setSession k (some { q with sub := some { u with repeats := u.repeats + 1 } }))

/-- OD_EVENT_RETRANSMIT. -/
def execOdEventRetransmit (k : Fin 9) (s : State) : Out := .next (s.unsent.resendEvents k.val)

/-- OD_TRANSFER_TIMEOUT: the transfer is discarded. -/
def execOdTransferTimeout (k : Fin 9) (req : BitVec 16) (s : State) : Out := .next (s.endXfer k.val req.toNat)

/-- SESSION_TIMEOUT: the network session ends. -/
def execSessionTimeout (k : Fin 8) (s : State) : Out := .next (s.setSession k.val none)

/-- Trust anchors that are set. -/
def State.anchors (s : State) : List (List Nat) :=
  (List.range 4).filterMap (fun i => match s.objVal 0x6100 (i + 1) with
    | some (b :: bs) => some (b :: bs)
    | _ => none)

/-- Why a handshake is refused: 0 accepted, 1 profile, 2 chain, 3 no anchor, 4 session limit (Table, Steward event codes). -/
def State.refusalOf (s : State) (h : Handshake) (locked : Bool) : Nat :=
  if h.profile = false then 1
  else if s.anchors.isEmpty then 3
  else if h.chain = false ∨ h.root.map (fun b => b.toNat) ∉ s.anchors ∨ (locked ∧ h.dates = false) then 2
  else if ((List.range 8).find? (fun k => (s.session k).isNone)).isNone then 4
  else 0

/-- DTLS_HANDSHAKE. -/
def execDtlsHandshake (h : Handshake) (s : State) : Out :=
  .next (
    let p := s.ptpState
    let s1 := p.2
    let why := s1.refusalOf h (p.1 == 3)
    match why, (List.range 8).find? (fun k => (s1.session k).isNone) with
    | 0, some k => ((s1.setSession k (some Session.init)).logEvent 0x608 0 0x51 k 0).answer .done
    | _, _ => (s1.logEvent 0x609 1 0x51 why 0).answer .dropped)

end Sys2Proof.Machine
end

