-- ==== Sys2Proof/Machine/Boot.lean ====
section
/-! DEFINITION. The steward firmware from the end of DRAM initialisation to SERVICE: its later images, the stored values and the release
of the application cores (17_boot_and_firmware.md R432, R441, R442; 18 R467, R470, R471; 13 R334, R335; 19 R483). -/

namespace Sys2Proof.Machine

/-! ### Later images (R441) -/

/-- The image of a type among those that follow the steward's. -/
def imageOf (ims : List FwImage) (type : Nat) : Option FwImage := ims.find? (fun im => manType im.manifest == type)

/-- The range that a type 2 or 3 image is loaded to lies in usable DRAM. -/
def State.loadRangeOk (s : State) (m : List Nat) : Bool := decide (manLoad m + manSize m ≤ s.dramBytes)

/-- An image of type t is loaded at its load address and measured in register i; its security version is number i - 1. None where
there is no such image or it fails. -/
def State.loadLater (s : State) (ims : List FwImage) (t i : Nat) : Option (State × List Nat) :=
  match imageOf ims t with
  | none => none
  | some im =>
    let m := im.manifest
    if s.imageOk im && s.loadRangeOk m then
      let s1 := (s.setBytes (manLoad m) (im.payload.take (manSize m))).extend i (manDigest m)
      some ({ s1 with boot := { s1.boot with svns := s1.boot.svns.set (i - 1) (manSvn m) } }, m)
    else none

/-- The hedge image is written into both copies that differ from it, and measured. -/
def State.loadHedge (s : State) (ims : List FwImage) : State :=
  match imageOf ims 4 with
  | none => s
  | some im =>
    let m := im.manifest
    let bs := im.payload.take (manSize m)
    if s.imageOk im && decide (bs.length ≤ 0x200000) then
      let s1 := hedgeCopies.foldl (fun t b => if t.bytes b bs.length = bs then t else t.setBytes b bs) s
      let s2 := s1.extend 4 (manDigest m)
      { s2 with boot := { s2.boot with svns := s2.boot.svns.set 3 (manSvn m) } }
    else s

/-- The application-core firmware is in force: its entry, and all eight cores released. -/
def State.releaseApp (s : State) (m : List Nat) : State :=
  let e := manLoad m + manEntry m
  (((s.setRegN Reg.SYS_APPVER (manVersion m)).hcxWrite Reg.HCX_RVEC_LO (e % 2 ^ 32) 0x61).hcxWrite Reg.HCX_RVEC_HI (e / 2 ^ 32) 0x61).hcxWrite
    Reg.HCX_RELEASE 0xFF 0x61

/-! ### Stored values (R470) -/

/-- The object that a stored value belongs to still exists, is stored, and has its type. -/
def storedFits (e : StoredValue) : Bool :=
  match lookupObj e.index e.sub with
  | .found o => o.acc == .rws && o.type == e.type
  | _ => false

/-- A stored value comes into force through its object's normal write; a refused one is logged. -/
def State.applyStored (s : State) (e : StoredValue) : State :=
  if storedFits e then
    let r := s.odSet 8 e.index e.sub e.value
    if r.1 = 0 then r.2 else r.2.logEvent 0x60A 2 0x51 (e.index + e.sub * 65536) 0
  else s

/-- Whether a stored value enables a pixel port: these follow the ISP contexts. -/
def enablesPort (e : StoredValue) : Bool := decide (0x8000 ≤ e.index) && decide (e.index < 0x8004) && e.sub == 7

/-- The contexts that stored values reached are committed once. -/
def State.commitContexts (s : State) (es : List StoredValue) : State :=
  (List.range 4).foldl (fun t n => if es.any (fun e => e.index == 0x8010 + n) then (t.regPut (Reg.ISP_CTX_COMMIT n) 1).2 else t) s

/-- Places a stored value among others in the order of index and subindex. -/
def insertStored (e : StoredValue) : List StoredValue → List StoredValue
  | [] => [e]
  | x :: xs => if 256 * e.index + e.sub ≤ 256 * x.index + x.sub then e :: x :: xs else x :: insertStored e xs

/-- Every stored value but the hash masks, in the order of index and subindex. -/
def State.applyAll (s : State) (es : List StoredValue) : State :=
  let rest := (es.foldr insertStored []).filter (fun e => e.index != 0x2010)
  let s1 := (rest.filter (fun e => !enablesPort e)).foldl State.applyStored s
  (rest.filter enablesPort).foldl State.applyStored (s1.commitContexts rest)

/-- The default of object 0x9000:01: 0x02, then bytes 0 to 4 of the identity hash. -/
def State.defaultMac (s : State) : Nat := (0x02 :: (sha384 (s.regBytes (Reg.SEC_IDPUB 0) 96)).take 5).foldl (fun n b => n * 256 + b) 0

/-- The slot of the newest complete copy: the last of the slots, in rotation, that hold the newest generation. -/
def State.newestSlot (s : State) (gen : Nat) : Nat :=
  let has := fun (i : Nat) => match s.recordAt (dictSlot i) 65536 with
    | some r => recordGen r == gen
    | none => false
  ((List.range 31).find? (fun i => has i && !has ((i + 1) % 31))).getD 30

/-- Highest generation among records. -/
def topGeneration (rs : List (List Nat)) : Nat := rs.foldl (fun n r => max n (recordGen r)) 0

/-- The steward takes up the records of NVM and applies the stored values. -/
def State.applyRecord (s : State) : State :=
  let gen := topGeneration ((List.range 31).filterMap (fun i => s.recordAt (dictSlot i) 65536))
  let once := topGeneration ((List.range 2).filterMap (fun i => s.recordAt (dictSlot 31 + i * 0x8000) 32768))
  let rec_ := s.storedRecord.1
  let s1 := { s with dict := { s.dict with genInForce := (rec_.map recordGen).getD 0, genWritten := gen, slot := s.newestSlot gen, onceGen := once } }
  let s2 := (s1.regPuts Reg.MNET_MAC_LO [s1.defaultMac % 2 ^ 32, s1.defaultMac / 2 ^ 32]).2
  match rec_ with
  | some r => s2.applyAll (entriesOf r)
  | none => s2

/-! ### From initialised DRAM to SERVICE (R432, R441) -/

/-- A threader or application-core image is missing or fails: the part stays in START; after a boot from the pending slot the steward
asserts source 9. -/
def State.laterFailed (s : State) : State := if s.bit Reg.SEC_BOOTINFO 12 then s.raise 9 else s

/-- The steward loads its later images, applies the stored values, releases the application cores and enters SERVICE. -/
def State.stewardFinish (s : State) (ims : List FwImage) : State :=
  let s0 := { s with boot := { s.boot with rest := none } }
  match (s0.setFld Reg.SYS_SC_WINDOW 0 5 8).loadLater ims 3 2 with
  | none => (s0.setFld Reg.SYS_SC_WINDOW 0 5 8).applyRecord.laterFailed
  | some (s1, thr) =>
    let s2 := s1.setRegN Reg.SYS_THRVER (manVersion thr)
    match s2.loadLater ims 2 3 with
    | none => s2.applyRecord.laterFailed
    | some (s3, app) => (((s3.loadHedge ims).releaseApp app).applyRecord).regimeWrite 1 0x61

/-- DRAM_INIT_COMPLETE: initialisation ends; when the steward's start waits for it, the start goes on, or ends in START. -/
def execDramInitComplete (r : DramInit) (s : State) : Out :=
  .next (
    let waited := s.bit Reg.DMC_STATUS 1 && !s.dramReady
    let t := s.dramInitDone r
    match t.boot.rest with
    | none => t
    | some ims =>
      if waited = false then t
      else if t.dramReady then t.stewardFinish ims
      else { t with boot := { t.boot with rest := none } })

end Sys2Proof.Machine
end

