-- ==== Sys2Proof/Machine/LooseImage.lean ====
section
/-! DEFINITION. The end of a loose translation (10_jobs_and_preemption.md R274, R275). -/

namespace Sys2Proof.Machine

/-- Instructions that a loose program may not contain (R246, R275), so far as the instruction itself tells. -/
def notLoose : Instr → Bool
  | .waitpick _ _ | .sync _ _ _ | .phaseHint _ _ _ | .carryBegin _ _ | .carryEnd _ | .emitDet _ _ | .emitRec _ _ _ _ => true
  | .cfgGang _ _ | .cfgNum _ _ | .statOut _ _ _ | .maxabsOut _ _ => true
  | .req _ f => f.stat.toNat != 0 || f.maxabs.toNat != 0
  | _ => false

/-- A command that costs the vector engine more than 1,080 cycles, so far as its fields tell (R275). -/
def tooLong (i : Instr) : Bool := decide (1080 < veCost none i)

/-- What the checks of R274 find in the text of a loose program: the code and the weft index of the first failed check. -/
def looseStatic (ws : List Nat) : Option (Nat × Nat) :=
  match encodingError false ws with
  | some i => some (0x01, i)
  | none =>
    if 16384 < ws.length ∨ ws = [] then some (0x02, noIndex)
    else match structureError ws, immediateError ws with
      | some f, _ => some (0x03, f.index)
      | none, some i => some (0x05, i)
      | none, none =>
        let fixed := fun (k : Nat) => (ws.take k).filterMap (fun w => match decodeWeft (.woven 0) w with
          | some (.seXfer _ f) => if f.ireg then none else some f.idx.toNat
          | _ => none)
        match (List.range ws.length).find? (fun k => decide (256 < (fixed (k + 1)).eraseDups.length)) with
        | some i => some (0x06, i)
        | none => ((ws.zipIdx).find? (fun (w, _) => match decodeWeft (.woven 0) w with
            | some i => notLoose i || tooLong i
            | none => false)).map (fun e => (0x0F, e.2))

/-- The first SE.XFER with a fixed index whose table entry a loose program may not use: kind PUSH or the carry space (R246). -/
def State.looseEntry (s : State) (ws : List Nat) : Option (Nat × Nat) :=
  ((ws.zipIdx).find? (fun (w, _) => match decodeWeft (.woven 0) w with
    | some (.seXfer _ f) =>
      let b := s.bytes (s.reg64 Reg.SYS_SDT_BASE_LO % 2 ^ 40 + 64 * f.idx.toNat) 64
      let d := Desc.ofBytes b
      !f.ireg && descCrcOk b && (d.kind == 5 || d.space == 2)
    | _ => false)).map (fun e => (0x0F, e.2))

/-- What the threader finds in a loose program without following addresses in registers. -/
def State.looseError (s : State) (ws : List Nat) : Option (Nat × Nat) := (looseStatic ws) <|> (s.looseEntry ws)

/-- The stream slots that a program names, as a mask. -/
def looseSlots (ws : List Nat) : Nat := 0xFFFF - freeSlots ws

/-- The accumulator tiles that an instruction names. -/
def tilesOf : Instr → List Nat
  | .mpass _ f => (List.range ((f.mcount.toNat + 32) / 32)).map (fun i => f.t0.toNat + i)
  | .req _ f => if f.srcMem then [] else (List.range ((f.rows.toNat + 32) / 32)).map (fun i => f.src.toNat % 16 + i)
  | .wcomb _ f => ([f.c0, f.c8, f.c16].filter (fun (c : WClass) => c.present)).flatMap (fun c =>
      (List.range ((f.rows.toNat + 32) / 32)).map (fun i => c.tile.toNat + i))
  | .vmaxabs _ f => if f.srcMem then [] else (List.range ((f.rows.toNat + 32) / 32)).map (fun i => f.src.toNat % 16 + i)
  | _ => []

/-- The accumulator tiles that a program names, as a mask. -/
def looseTiles (ws : List Nat) : Nat :=
  let used := ws.flatMap (fun w => match decodeWeft (.woven 0) w with | some i => tilesOf i | none => [])
  (List.range 16).foldl (fun m i => if used.contains i then m + 2 ^ i else m) 0

/-- A failed check in WV_LPT_STAT and WV_LPT_INDEX. -/
def State.lptFail (s : State) (check index : Nat) : State :=
  ((s.setFld Reg.WV_LPT_STAT 0 8 check).sticky Reg.WV_LPT_STAT 10).setRegN Reg.WV_LPT_INDEX index

/-- Writes a loose image: the 64-byte header and the native code (Table, Loose image header). -/
def State.writeLoose (s : State) (a weft slots tiles spOff spSize mode : Nat) (ftz : Bool) (native : List Nat) : State :=
  let h := leBytes 4 0x534F4F4C ++ leBytes 2 1 ++ leBytes 2 (s.fld Reg.SYS_PARTID 0 16) ++ leBytes 4 weft ++
    leBytes 4 native.length ++ leBytes 2 slots ++ leBytes 2 tiles ++ leBytes 4 spOff ++ leBytes 4 spSize ++
    [mode, if ftz then 1 else 0] ++ List.replicate 22 0 ++ leBytes 4 (crc32c native) ++ List.replicate 4 0
  let bs := h ++ leBytes 4 (crc32c h) ++ native
  (s.setBytes a bs).healLines ((List.range bs.length).map (fun i => a + i))

/-- TRANSLATE_DONE: the checks that the program and the descriptor table decide, and the stream slots and tiles of the header, are found
here; r is what else the threader finds: a later check that fails, or the other declarations of the image and its native code. -/
def execTranslateDone (r : LooseResult) (s : State) : Out :=
  .next (if s.bit Reg.WV_LPT_STAT 8 then
    let src := s.reg64 Reg.WV_LPT_SRC_LO % 2 ^ 40
    let n := s.fld Reg.WV_LPT_LEN 0 15
    let ws := (List.range n).map (fun i => s.le (src + 8 * i) 8)
    let s1 := s.putBit Reg.WV_LPT_STAT 8 false
    match s.looseError ws, r with
    | some (c, i), .failed check index =>
      if check.toNat < c then s1.lptFail check.toNat index.toNat else s1.lptFail c i
    | some (c, i), .image .. => s1.lptFail c i
    | none, .failed check index => s1.lptFail check.toNat index.toNat
    | none, .image spOff spSize mode ftz native =>
      s1.writeLoose (s.reg64 Reg.WV_LPT_DST_LO % 2 ^ 40) n (looseSlots ws) (looseTiles ws) spOff.toNat spSize.toNat mode.toNat ftz
        (native.map BitVec.toNat) |>.sticky Reg.WV_LPT_STAT 9
  else s)

end Sys2Proof.Machine
end

