-- ==== Sys2Proof/Machine/PcieHost.lean ====
section
/-! DEFINITION. The PCIe endpoint: the BARs and the link (19_host_interfaces.md R486 to R489; 17 R436; 20 R512). -/

namespace Sys2Proof.Machine

/-- The link is up and BARs are decoded: PCIE_PERST_N is high, the link has trained, and block 0x38 is not held in an L3 reset. -/
def State.barsOpen (s : State) : Bool := !s.rst.perstLow && s.bit Reg.PCIE_STATUS 0 && !s.rst.l3.contains 0x38

/-- Device address of a BAR0 offset (Table, BAR0 layout). -/
def State.bar0 (s : State) (o : Nat) : Nat :=
  match o / 0x100000 with
  | 0 => Reg.blk 0x41 + o
  | 1 => Reg.blk 0x38 + o % 0x100000
  | 2 => Reg.blk 0x51 + o % 0x100000
  | _ => s.reg64 Reg.PCIE_IWIN_LO % 2 ^ 40 + o % 0x100000

/-- Device address of a BAR2 offset: window base plus offset in the window; while the boot ROM serves the PCIe source, window 0 reaches
the first 16 MiB of the system cache window, and nothing else of it. -/
def State.bar2 (s : State) (o : Nat) : Nat :=
  let w := o / 2 ^ 32
  if w = 0 ∧ s.servesPcie = true then (if o < 0x1000000 then windowBase + o else 2 ^ 40)
  else s.reg64 (Reg.PCIE_WIN_LO w) % 2 ^ 40 + o % 2 ^ 32

/-- Where a host access of n bytes lands: BAR0 reaches registers, 32 bits and naturally aligned. -/
def State.barPlace (s : State) (bar2 : Bool) (o n : Nat) : Nat × Place :=
  if bar2 then (s.bar2 o, s.place (s.bar2 o) n)
  else if n = 4 ∧ o % 4 = 0 then (s.bar0 o, s.place (s.bar0 o) n)
  else (s.bar0 o, .err)

/-- PCIE_STAT.ca, and the bus error under master 0x60. -/
def State.hostError (s : State) (a : Nat) (write : Bool) : State := (s.sticky Reg.PCIE_STAT 1).busError a 0x60 write

/-- A host read: data, EP, or Completer Abort. -/
def State.hostRead (s : State) (bar2 : Bool) (o n : Nat) : State :=
  let p := s.barPlace bar2 o n
  match p.2 with
  | .err => ((s.hostError p.1 false).satAdd Reg.PCIE_CACOUNT 1).answer .error
  | .reg h =>
    if n = 4 ∧ h % 4 = 0 then
      let r := s.readReg h 0x60
      r.2.answer (.data (leBytes 4 r.1))
    else ((s.hostError p.1 false).satAdd Reg.PCIE_CACOUNT 1).answer .error
  | pl =>
    let r := s.memRead pl n
    s.answer (if r.2 then .poisoned else .data r.1)

/-- PCIE_HOST_READ. -/
def execPcieHostRead (bar2 : Bool) (off : BitVec 34) (n : BitVec 13) (s : State) : Out :=
  .next (if s.barsOpen then s.hostRead bar2 off.toNat n.toNat else s)

/-- A host write: posted, or discarded. -/
def State.hostWrite (s : State) (bar2 : Bool) (o : Nat) (bs : List Nat) : State :=
  let p := s.barPlace bar2 o bs.length
  match p.2 with
  | .err => (s.hostError p.1 true).answer .dropped
  | .reg h =>
    if bs.length = 4 ∧ h % 4 = 0 then (s.regWrite h (leVal bs) 0x60).answer .done
    else (s.hostError p.1 true).answer .dropped
  | pl => if pl.writable then (s.memWrite pl bs).answer .done else (s.hostError p.1 true).answer .dropped

/-- PCIE_HOST_WRITE: a poisoned one is discarded. -/
def execPcieHostWrite (bar2 : Bool) (off : BitVec 34) (data : List (BitVec 8)) (poisoned : Bool) (s : State) : Out :=
  .next (if s.barsOpen then
      (if poisoned then (s.sticky Reg.PCIE_STAT 2).answer .dropped else s.hostWrite bar2 off.toNat (data.map (fun b => b.toNat)))
    else s)

/-- PCIE_PERST_N_RELEASE: the pin rises; link is the link that training and the host's enumeration leave, none if it does not
train. PCIE_CFG limits width and generation. -/
def execPciePerstNRelease (link : Option PcieLink) (s : State) : Out :=
  .next (
    let s1 := { s with rst := { s.rst with perstLow := false } }
    match link with
    | none => s1.setRegN Reg.PCIE_STATUS 0
    | some l =>
      let w := min l.width.toNat (s1.fld Reg.PCIE_CFG 0 3)
      let g := min l.speed.toNat (s1.fld Reg.PCIE_CFG 3 3)
      s1.watched (fun t => t.setRegN Reg.PCIE_STATUS (1 + w * 2 + g * 16 + (if l.msix then 512 else 0))))

end Sys2Proof.Machine
end

