-- ==== Sys2Proof/Machine/Dispatch.lean ====
section
/-! DEFINITION. The effect of every command of spec/opcode_table.json: one arm per command. -/

namespace Sys2Proof.Machine

/-- The effect of a command on everything but the queue of waiting commands. -/
def exec (i : Instr) (s : State) : Host.Outcome State Fault Refusal :=
  match i with
  | .pickBoundary => Sys2Proof.Machine.execPickBoundary s
  | .lagLimitReached l stalled => Sys2Proof.Machine.execLagLimitReached l stalled s
  | .failoverLoadComplete g progError shadowError => Sys2Proof.Machine.execFailoverLoadComplete g progError shadowError s
  | .spareResume g => Sys2Proof.Machine.execSpareResume g s
  | .spareInitComplete p => Sys2Proof.Machine.execSpareInitComplete p s
  | .pickAcknowledge p => Sys2Proof.Machine.execPickAcknowledge p s
  | .commandInputPresent x => Sys2Proof.Machine.execCommandInputPresent x s
  | .inputWaitExpiry x => Sys2Proof.Machine.execInputWaitExpiry x s
  | .tickBoundary => Sys2Proof.Machine.execTickBoundary s
  | .carryShadowComplete l => Sys2Proof.Machine.execCarryShadowComplete l s
  | .telemetryLatchIdle => Sys2Proof.Machine.execTelemetryLatchIdle s
  | .retirementSlot => Sys2Proof.Machine.execRetirementSlot s
  | .weaveLoad master => Sys2Proof.Machine.execWeaveLoad master s
  | .loadComplete report => Sys2Proof.Machine.execLoadComplete report s
  | .weaveStart => Sys2Proof.Machine.execWeaveStart s
  | .weaveStartPick => Sys2Proof.Machine.execWeaveStartPick s
  | .weaveStop master => Sys2Proof.Machine.execWeaveStop master s
  | .weaveReplace master => Sys2Proof.Machine.execWeaveReplace master s
  | .weaveAbandon master => Sys2Proof.Machine.execWeaveAbandon master s
  | .weaveHedge => Sys2Proof.Machine.execWeaveHedge s
  | .weaveLock => Sys2Proof.Machine.execWeaveLock s
  | .hedgeWeaveStart => Sys2Proof.Machine.execHedgeWeaveStart s
  | .corePark p => Sys2Proof.Machine.execCorePark p s
  | .parkComplete p => Sys2Proof.Machine.execParkComplete p s
  | .parkTimeout p stalled => Sys2Proof.Machine.execParkTimeout p stalled s
  | .coreResume p => Sys2Proof.Machine.execCoreResume p s
  | .coreHalt p master stalled => Sys2Proof.Machine.execCoreHalt p master stalled s
  | .coreUnhalt p => Sys2Proof.Machine.execCoreUnhalt p s
  | .coreSpare p => Sys2Proof.Machine.execCoreSpare p s
  | .uncorrDataHalt p addr => Sys2Proof.Machine.execUncorrDataHalt p addr s
  | .gangModeChange p => Sys2Proof.Machine.execGangModeChange p s
  | .statModeChange p => Sys2Proof.Machine.execStatModeChange p s
  | .coreGangWrite p v => Sys2Proof.Machine.execCoreGangWrite p v s
  | .coreNumcfgWrite p v => Sys2Proof.Machine.execCoreNumcfgWrite p v s
  | .coreMaxabsClr p v => Sys2Proof.Machine.execCoreMaxabsClr p v s
  | .coreSeinv p v => Sys2Proof.Machine.execCoreSeinv p v s
  | .sysSdtInv v => Sys2Proof.Machine.execSysSdtInv v s
  | .sysSdtBaseWrite hi v master => Sys2Proof.Machine.execSysSdtBaseWrite hi v master s
  | .scWindowWrite v master => Sys2Proof.Machine.execScWindowWrite v master s
  | .scWindowFlushDone => Sys2Proof.Machine.execScWindowFlushDone s
  | .readCacheInvalidate g => Sys2Proof.Machine.execReadCacheInvalidate g s
  | .roleTableWrite l v => Sys2Proof.Machine.execRoleTableWrite l v s
  | .parameterShadowWrite p n v => Sys2Proof.Machine.execParameterShadowWrite p n v s
  | .coreRegisterWrite p n v => Sys2Proof.Machine.execCoreRegisterWrite p n v s
  | .programWrite p off v => Sys2Proof.Machine.execProgramWrite p off v s
  | .outsideCoreAccess addr n write master => Sys2Proof.Machine.execOutsideCoreAccess addr n write master s
  | .fabricAccess addr n write master => Sys2Proof.Machine.execFabricAccess addr n write master s
  | .registerWrite addr v master => Sys2Proof.Machine.execRegisterWrite addr v master s
  | .pushArrival n => Sys2Proof.Machine.execPushArrival n s
  | .staleNotice n => Sys2Proof.Machine.execStaleNotice n s
  | .syncExpiry g b => Sys2Proof.Machine.execSyncExpiry g b s
  | .nop x => Sys2Proof.Machine.execNop x s
  | .halt x => Sys2Proof.Machine.execHalt x s
  | .jump x target => Sys2Proof.Machine.execJump x target s
  | .call x target => Sys2Proof.Machine.execCall x target s
  | .ret x => Sys2Proof.Machine.execRet x s
  | .loop x count last => Sys2Proof.Machine.execLoop x count last s
  | .waitpick x n => Sys2Proof.Machine.execWaitpick x n s
  | .sync x barrier mask => Sys2Proof.Machine.execSync x barrier mask s
  | .phaseHint x level lead => Sys2Proof.Machine.execPhaseHint x level lead s
  | .carryBegin x region => Sys2Proof.Machine.execCarryBegin x region s
  | .carryEnd x => Sys2Proof.Machine.execCarryEnd x s
  | .add x f => Sys2Proof.Machine.execAdd x f s
  | .sub x f => Sys2Proof.Machine.execSub x f s
  | .mul x f => Sys2Proof.Machine.execMul x f s
  | .mulhs x f => Sys2Proof.Machine.execMulhs x f s
  | .mulhu x f => Sys2Proof.Machine.execMulhu x f s
  | .and x f => Sys2Proof.Machine.execAnd x f s
  | .or x f => Sys2Proof.Machine.execOr x f s
  | .xor x f => Sys2Proof.Machine.execXor x f s
  | .shl x f => Sys2Proof.Machine.execShl x f s
  | .shr x f => Sys2Proof.Machine.execShr x f s
  | .sra x f => Sys2Proof.Machine.execSra x f s
  | .min x f => Sys2Proof.Machine.execMin x f s
  | .max x f => Sys2Proof.Machine.execMax x f s
  | .minu x f => Sys2Proof.Machine.execMinu x f s
  | .maxu x f => Sys2Proof.Machine.execMaxu x f s
  | .slt x f => Sys2Proof.Machine.execSlt x f s
  | .sltu x f => Sys2Proof.Machine.execSltu x f s
  | .movi x rd v => Sys2Proof.Machine.execMovi x rd v s
  | .mova x ad v => Sys2Proof.Machine.execMova x ad v s
  | .adda x ad an sel => Sys2Proof.Machine.execAdda x ad an sel s
  | .addai x ad an v => Sys2Proof.Machine.execAddai x ad an v s
  | .madda x ad an sel v => Sys2Proof.Machine.execMadda x ad an sel v s
  | .movas x ad sel => Sys2Proof.Machine.execMovas x ad sel s
  | .sld x rd an off => Sys2Proof.Machine.execSld x rd an off s
  | .sst x sel an off => Sys2Proof.Machine.execSst x sel an off s
  | .lda x ad an off => Sys2Proof.Machine.execLda x ad an off s
  | .cfgGang x v => Sys2Proof.Machine.execCfgGang x v s
  | .cfgNum x v => Sys2Proof.Machine.execCfgNum x v s
  | .seXfer x f => Sys2Proof.Machine.execSeXfer x f s
  | .seInv x v => Sys2Proof.Machine.execSeInv x v s
  | .mpass x f => Sys2Proof.Machine.execMpass x f s
  | .vadd x f => Sys2Proof.Machine.execVadd x f s
  | .vsub x f => Sys2Proof.Machine.execVsub x f s
  | .vmul x f => Sys2Proof.Machine.execVmul x f s
  | .vmin x f => Sys2Proof.Machine.execVmin x f s
  | .vmax x f => Sys2Proof.Machine.execVmax x f s
  | .vand x f => Sys2Proof.Machine.execVand x f s
  | .vor x f => Sys2Proof.Machine.execVor x f s
  | .vxor x f => Sys2Proof.Machine.execVxor x f s
  | .vshl x f => Sys2Proof.Machine.execVshl x f s
  | .vsra x f => Sys2Proof.Machine.execVsra x f s
  | .vcvti x f => Sys2Proof.Machine.execVcvti x f s
  | .vcvtf x f => Sys2Proof.Machine.execVcvtf x f s
  | .vcopy x f => Sys2Proof.Machine.execVcopy x f s
  | .req x f => Sys2Proof.Machine.execReq x f s
  | .wcomb x f => Sys2Proof.Machine.execWcomb x f s
  | .pool x f => Sys2Proof.Machine.execPool x f s
  | .dwconv x f => Sys2Proof.Machine.execDwconv x f s
  | .boxdecH x pA clear first count => Sys2Proof.Machine.execBoxdecH x pA clear first count s
  | .boxdecE x pA first count => Sys2Proof.Machine.execBoxdecE x pA first count s
  | .nmsSort x pA => Sys2Proof.Machine.execNmsSort x pA s
  | .nmsSup x pA i0 i1 => Sys2Proof.Machine.execNmsSup x pA i0 i1 s
  | .nmsOut x pA => Sys2Proof.Machine.execNmsOut x pA s
  | .crop x pA first count => Sys2Proof.Machine.execCrop x pA first count s
  | .emitDet x f => Sys2Proof.Machine.execEmitDet x f s
  | .emitRec x lA q n => Sys2Proof.Machine.execEmitRec x lA q n s
  | .statOut x slot dA => Sys2Proof.Machine.execStatOut x slot dA s
  | .maxabsOut x dA => Sys2Proof.Machine.execMaxabsOut x dA s
  | .vmaxabs x f => Sys2Proof.Machine.execVmaxabs x f s
  | .jobSubmit n v master => Sys2Proof.Machine.execJobSubmit n v master s
  | .jobCancel n v master => Sys2Proof.Machine.execJobCancel n v master s
  | .jobQueueDisable n v master => Sys2Proof.Machine.execJobQueueDisable n v master s
  | .jobDrainComplete num => Sys2Proof.Machine.execJobDrainComplete num s
  | .jobSaveComplete num => Sys2Proof.Machine.execJobSaveComplete num s
  | .jobRestoreComplete num => Sys2Proof.Machine.execJobRestoreComplete num s
  | .looseAllowanceWrite p tiles v => Sys2Proof.Machine.execLooseAllowanceWrite p tiles v s
  | .translate v => Sys2Proof.Machine.execTranslate v s
  | .translateDone r => Sys2Proof.Machine.execTranslateDone r s
  | .ethernetFrameReceive port time frame => Sys2Proof.Machine.execEthernetFrameReceive port time frame s
  | .reassemblyTimeout n => Sys2Proof.Machine.execReassemblyTimeout n s
  | .swTxSubmit port v => Sys2Proof.Machine.execSwTxSubmit port v s
  | .streamEntryWrite n w v => Sys2Proof.Machine.execStreamEntryWrite n w v s
  | .anchorCommit => Sys2Proof.Machine.execAnchorCommit s
  | .decodeSlotOpen i_ unsupported absent => Sys2Proof.Machine.execDecodeSlotOpen i_ unsupported absent s
  | .decodeComplete k r => Sys2Proof.Machine.execDecodeComplete k r s
  | .decodeDeadline k => Sys2Proof.Machine.execDecodeDeadline k s
  | .encoderSubmit e v => Sys2Proof.Machine.execEncoderSubmit e v s
  | .encodeComplete e r => Sys2Proof.Machine.execEncodeComplete e r s
  | .encoderDisable e v => Sys2Proof.Machine.execEncoderDisable e v s
  | .timebaseStep v => Sys2Proof.Machine.execTimebaseStep v s
  | .stepAbsorbed => Sys2Proof.Machine.execStepAbsorbed s
  | .timebaseSet v => Sys2Proof.Machine.execTimebaseSet v s
  | .ppsPulse high => Sys2Proof.Machine.execPpsPulse high s
  | .pixelVsyncEdge n time => Sys2Proof.Machine.execPixelVsyncEdge n time s
  | .pixelLineEnd n samples => Sys2Proof.Machine.execPixelLineEnd n samples s
  | .pixelFrameClose n => Sys2Proof.Machine.execPixelFrameClose n s
  | .pixelFrameTimeout n => Sys2Proof.Machine.execPixelFrameTimeout n s
  | .pixelNoSignal n => Sys2Proof.Machine.execPixelNoSignal n s
  | .pclkMeasure n khz => Sys2Proof.Machine.execPclkMeasure n khz s
  | .pixelPortEnable n v => Sys2Proof.Machine.execPixelPortEnable n v s
  | .ispSlotOpen i_ => Sys2Proof.Machine.execIspSlotOpen i_ s
  | .ispPassComplete => Sys2Proof.Machine.execIspPassComplete s
  | .ispPassCutoff => Sys2Proof.Machine.execIspPassCutoff s
  | .ispCommit n => Sys2Proof.Machine.execIspCommit n s
  | .dramInit fill => Sys2Proof.Machine.execDramInit fill s
  | .dramInitComplete r => Sys2Proof.Machine.execDramInitComplete r s
  | .dramFlush fill => Sys2Proof.Machine.execDramFlush fill s
  | .dramFlushComplete => Sys2Proof.Machine.execDramFlushComplete s
  | .dramRequest line cls write noalloc part close scrub => Sys2Proof.Machine.execDramRequest line cls write noalloc part close scrub s
  | .dramAccessIssue ch => Sys2Proof.Machine.execDramAccessIssue ch s
  | .dramReadComplete ch errors link raw => Sys2Proof.Machine.execDramReadComplete ch errors link raw s
  | .dramRefresh ch bank => Sys2Proof.Machine.execDramRefresh ch bank s
  | .refreshManagement ch bank => Sys2Proof.Machine.execRefreshManagement ch bank s
  | .quietWindow ch osc0 osc1 mr4 hot => Sys2Proof.Machine.execQuietWindow ch osc0 osc1 mr4 hot s
  | .powerDownEntry ch rank => Sys2Proof.Machine.execPowerDownEntry ch rank s
  | .openRowIdleClose ch bank => Sys2Proof.Machine.execOpenRowIdleClose ch bank s
  | .dramRequestTimeout ch => Sys2Proof.Machine.execDramRequestTimeout ch s
  | .hardFaultRecheck still column index factory => Sys2Proof.Machine.execHardFaultRecheck still column index factory s
  | .sramPatrol kind unit mac addr r => Sys2Proof.Machine.execSramPatrol kind unit mac addr r s
  | .scrubGo => Sys2Proof.Machine.execScrubGo s
  | .scrubAbort => Sys2Proof.Machine.execScrubAbort s
  | .scrubPassEnd lines => Sys2Proof.Machine.execScrubPassEnd lines s
  | .estimatorPeriod c => Sys2Proof.Machine.execEstimatorPeriod c s
  | .vfEvaluation => Sys2Proof.Machine.execVfEvaluation s
  | .voltageTransactionComplete d => Sys2Proof.Machine.execVoltageTransactionComplete d s
  | .profileWrite v master => Sys2Proof.Machine.execProfileWrite v master s
  | .hintTakesEffect => Sys2Proof.Machine.execHintTakesEffect s
  | .droopDetected g => Sys2Proof.Machine.execDroopDetected g s
  | .droopRecovered g cycles => Sys2Proof.Machine.execDroopRecovered g cycles s
  | .deepDroopExpiry g => Sys2Proof.Machine.execDeepDroopExpiry g s
  | .pmbusPoll r0 r1 => Sys2Proof.Machine.execPmbusPoll r0 r1 s
  | .pmbMailboxTransaction v => Sys2Proof.Machine.execPmbMailboxTransaction v s
  | .pmbMailboxDone ack pecErr data => Sys2Proof.Machine.execPmbMailboxDone ack pecErr data s
  | .sensorConversion n t ok => Sys2Proof.Machine.execSensorConversion n t ok s
  | .thermalEmergencyExpiry => Sys2Proof.Machine.execThermalEmergencyExpiry s
  | .fanTachCount pulses => Sys2Proof.Machine.execFanTachCount pulses s
  | .wakeStart u => Sys2Proof.Machine.execWakeStart u s
  | .wakeComplete u => Sys2Proof.Machine.execWakeComplete u s
  | .powerOnReset => Sys2Proof.Machine.execPowerOnReset s
  | .sysResetNLow => Sys2Proof.Machine.execSysResetNLow s
  | .thermalTrip => Sys2Proof.Machine.execThermalTrip s
  | .thermalTripRelease => Sys2Proof.Machine.execThermalTripRelease s
  | .stewardWatchdogExpiry => Sys2Proof.Machine.execStewardWatchdogExpiry s
  | .appWatchdogExpiry => Sys2Proof.Machine.execAppWatchdogExpiry s
  | .watchdogKick app v => Sys2Proof.Machine.execWatchdogKick app v s
  | .jtagReset => Sys2Proof.Machine.execJtagReset s
  | .pcieHotReset perst => Sys2Proof.Machine.execPcieHotReset perst s
  | .dictResetRequest => Sys2Proof.Machine.execDictResetRequest s
  | .secfailRequest => Sys2Proof.Machine.execSecfailRequest s
  | .softwareReset v master => Sys2Proof.Machine.execSoftwareReset v master s
  | .l3BlockReset n v master => Sys2Proof.Machine.execL3BlockReset n v master s
  | .coreReset v master => Sys2Proof.Machine.execCoreReset v master s
  | .regimeWrite v master => Sys2Proof.Machine.execRegimeWrite v master s
  | .resetStretchEnd golden => Sys2Proof.Machine.execResetStretchEnd golden s
  | .l3ResetEnd t => Sys2Proof.Machine.execL3ResetEnd t s
  | .referenceClockLoss => Sys2Proof.Machine.execReferenceClockLoss s
  | .pllLockLoss p => Sys2Proof.Machine.execPllLockLoss p s
  | .resetRelease st m => Sys2Proof.Machine.execResetRelease st m s
  | .bootSourceTimeout m => Sys2Proof.Machine.execBootSourceTimeout m s
  | .bootRetryWait => Sys2Proof.Machine.execBootRetryWait s
  | .pushDoorbell v master => Sys2Proof.Machine.execPushDoorbell v master s
  | .measurementExtend v master => Sys2Proof.Machine.execMeasurementExtend v master s
  | .keyDerive v master => Sys2Proof.Machine.execKeyDerive v master s
  | .attest v master => Sys2Proof.Machine.execAttest v master s
  | .attestDone => Sys2Proof.Machine.execAttestDone s
  | .handoverRequest => Sys2Proof.Machine.execHandoverRequest s
  | .handoverRestart => Sys2Proof.Machine.execHandoverRestart s
  | .handoverConfirm => Sys2Proof.Machine.execHandoverConfirm s
  | .handoverTimeout => Sys2Proof.Machine.execHandoverTimeout s
  | .fuseProgram v master vpp => Sys2Proof.Machine.execFuseProgram v master vpp s
  | .fuseProgramDone => Sys2Proof.Machine.execFuseProgramDone s
  | .dtlsHandshake h => Sys2Proof.Machine.execDtlsHandshake h s
  | .odRead k msg => Sys2Proof.Machine.execOdRead k msg s
  | .odReadSeg k msg => Sys2Proof.Machine.execOdReadSeg k msg s
  | .odWrite k msg => Sys2Proof.Machine.execOdWrite k msg s
  | .odWriteSeg k msg => Sys2Proof.Machine.execOdWriteSeg k msg s
  | .odAbort k msg => Sys2Proof.Machine.execOdAbort k msg s
  | .odSubscribe k msg => Sys2Proof.Machine.execOdSubscribe k msg s
  | .odEventAck k msg => Sys2Proof.Machine.execOdEventAck k msg s
  | .odPing k msg => Sys2Proof.Machine.execOdPing k msg s
  | .odEventRetransmit k => Sys2Proof.Machine.execOdEventRetransmit k s
  | .odTransferTimeout k req => Sys2Proof.Machine.execOdTransferTimeout k req s
  | .sessionTimeout k => Sys2Proof.Machine.execSessionTimeout k s
  | .store => Sys2Proof.Machine.execStore s
  | .storeWritten err => Sys2Proof.Machine.execStoreWritten err s
  | .restoreDefaults => Sys2Proof.Machine.execRestoreDefaults s
  | .odReset l => Sys2Proof.Machine.execOdReset l s
  | .odResetDelayExpiry => Sys2Proof.Machine.execOdResetDelayExpiry s
  | .updateHandover => Sys2Proof.Machine.execUpdateHandover s
  | .threaderActivate => Sys2Proof.Machine.execThreaderActivate s
  | .clearPending => Sys2Proof.Machine.execClearPending s
  | .nvmWrite v master => Sys2Proof.Machine.execNvmWrite v master s
  | .nvmWriteDone err => Sys2Proof.Machine.execNvmWriteDone err s
  | .mailboxClaim master => Sys2Proof.Machine.execMailboxClaim master s
  | .mailboxRelease master => Sys2Proof.Machine.execMailboxRelease master s
  | .mailboxRequestGo master => Sys2Proof.Machine.execMailboxRequestGo master s
  | .mailboxResponseAck master => Sys2Proof.Machine.execMailboxResponseAck master s
  | .ringRpWrite r v => Sys2Proof.Machine.execRingRpWrite r v s
  | .appCoreRelease v master => Sys2Proof.Machine.execAppCoreRelease v master s
  | .h2aSet v => Sys2Proof.Machine.execH2aSet v s
  | .a2hSet v => Sys2Proof.Machine.execA2hSet v s
  | .pcieEoi v => Sys2Proof.Machine.execPcieEoi v s
  | .msixUnmask n => Sys2Proof.Machine.execMsixUnmask n s
  | .pcieHostRead bar2 off n => Sys2Proof.Machine.execPcieHostRead bar2 off n s
  | .pcieHostWrite bar2 off data poisoned => Sys2Proof.Machine.execPcieHostWrite bar2 off data poisoned s
  | .gpioDirWrite v => Sys2Proof.Machine.execGpioDirWrite v s
  | .gpioSet v => Sys2Proof.Machine.execGpioSet v s
  | .gpioClr v => Sys2Proof.Machine.execGpioClr v s
  | .gpioInputEdge n level => Sys2Proof.Machine.execGpioInputEdge n level s
  | .mnetFrameReceive time frame => Sys2Proof.Machine.execMnetFrameReceive time frame s
  | .mdioCommand v => Sys2Proof.Machine.execMdioCommand v s
  | .mdioFrameDone data => Sys2Proof.Machine.execMdioFrameDone data s
  | .sysResetNRelease golden => Sys2Proof.Machine.execSysResetNRelease golden s
  | .pciePerstNRelease link => Sys2Proof.Machine.execPciePerstNRelease link s
  | .clockDomainNoAnswer g => Sys2Proof.Machine.execClockDomainNoAnswer g s
  | .swTxFrameSent port time => Sys2Proof.Machine.execSwTxFrameSent port time s

end Sys2Proof.Machine
end

