-- ==== Sys2Proof/Safety.lean ====
section
/-! DEFINITION. What counts as a safe run, and the terms in which claims about commands are stated: completion, the issue of a
weft instruction, and frames. -/

namespace Sys2Proof.Safety

open Sys2Proof.Machine

/-- An outcome is a next state: neither a fault nor a refusal. -/
def Completes (o : Host.Outcome State Fault Refusal) : Prop := ∃ t, o = .next t

/-- An outcome is a next state of which P holds. -/
def Gives (o : Host.Outcome State Fault Refusal) (P : State → Prop) : Prop := ∃ t, o = .next t ∧ P t

/-- An outcome is a next state in which the sequencer of context x has gone on to its next instruction from a state of which
P holds. -/
def Issues (x : Ctx) (o : Host.Outcome State Fault Refusal) (P : State → Prop) : Prop :=
  ∃ u, o = .next (State.advance u x) ∧ P u

/-- Nothing but registers differs, and only registers that L admits. -/
def OnlyRegs (s t : State) (L : Nat → Prop) : Prop := t = { s with regs := t.regs } ∧ ∀ a, ¬ L a → t.reg a = s.reg a

/-- Every byte of memory reads as before. -/
def SameMem (s t : State) : Prop := ∀ a, t.byte a = s.byte a

/-- Every byte of memory outside [lo, lo + n) reads as before. -/
def SameMemBut (s t : State) (lo n : Nat) : Prop := ∀ a, a < lo ∨ lo + n ≤ a → t.byte a = s.byte a

/-- Every core but p is as before. -/
def SameCores (s t : State) (p : Nat) : Prop := ∀ q, q ≠ p → t.core q = s.core q

/-- The registers that an event written to the error log changes (R387): the log itself, its pointers, RAS_STATUS and
RAS_IRQ_STATUS. -/
def LogReg (a : Nat) : Prop :=
  (Reg.RAS_LOG 0 ≤ a ∧ a < Reg.RAS_LOG 2048) ∨ a = Reg.RAS_LOG_SEQ ∨ a = Reg.RAS_LOG_NEXT ∨ a = Reg.RAS_STATUS ∨
    a = Reg.RAS_IRQ_STATUS

/-- The context that issues a weft instruction; none for a command that is no weft instruction. -/
def weftCtx : Instr → Option Ctx
  | .nop x | .halt x | .jump x _ | .call x _ | .ret x | .loop x _ _ | .waitpick x _ | .sync x _ _ | .phaseHint x _ _
  | .carryBegin x _ | .carryEnd x | .add x _ | .sub x _ | .mul x _ | .mulhs x _ | .mulhu x _ | .and x _ | .or x _ | .xor x _
  | .shl x _ | .shr x _ | .sra x _ | .min x _ | .max x _ | .minu x _ | .maxu x _ | .slt x _ | .sltu x _ | .movi x _ _
  | .mova x _ _ | .adda x _ _ _ | .addai x _ _ _ | .madda x _ _ _ _ | .movas x _ _ | .sld x _ _ _ | .sst x _ _ _ | .lda x _ _ _
  | .cfgGang x _ | .cfgNum x _ | .seXfer x _ | .seInv x _ | .mpass x _ | .vadd x _ | .vsub x _ | .vmul x _ | .vmin x _
  | .vmax x _ | .vand x _ | .vor x _ | .vxor x _ | .vshl x _ | .vsra x _ | .vcvti x _ | .vcvtf x _ | .vcopy x _ | .req x _
  | .wcomb x _ | .pool x _ | .dwconv x _ | .boxdecH x _ _ _ _ | .boxdecE x _ _ _ | .nmsSort x _ | .nmsSup x _ _ _
  | .nmsOut x _ | .crop x _ _ _ | .emitDet x _ | .emitRec x _ _ _ | .statOut x _ _ | .maxabsOut x _ | .vmaxabs x _ => some x
  | _ => none

/-- A scalar ALU instruction: its context, its fields and the operation that its row of the table names (R250). -/
def aluRow : Instr → Option (Ctx × Alu × (Word → Word → Word))
  | .add x f => some (x, f, fun a b => BitVec.ofNat 32 (a.toNat + b.toNat))
  | .sub x f => some (x, f, fun a b => BitVec.ofInt 32 ((a.toNat : Int) - b.toNat))
  | .mul x f => some (x, f, fun a b => BitVec.ofNat 32 (a.toNat * b.toNat))
  | .mulhs x f => some (x, f, fun a b => BitVec.ofInt 32 (a.toInt * b.toInt / 2 ^ 32))
  | .mulhu x f => some (x, f, fun a b => BitVec.ofNat 32 (a.toNat * b.toNat / 2 ^ 32))
  | .and x f => some (x, f, fun a b => a &&& b)
  | .or x f => some (x, f, fun a b => a ||| b)
  | .xor x f => some (x, f, fun a b => a ^^^ b)
  | .shl x f => some (x, f, fun a b => BitVec.ofNat 32 (a.toNat * 2 ^ (b.toNat % 32)))
  | .shr x f => some (x, f, fun a b => BitVec.ofNat 32 (a.toNat / 2 ^ (b.toNat % 32)))
  | .sra x f => some (x, f, fun a b => BitVec.ofInt 32 (a.toInt / 2 ^ (b.toNat % 32)))
  | .min x f => some (x, f, fun a b => if a.toInt ≤ b.toInt then a else b)
  | .max x f => some (x, f, fun a b => if a.toInt ≤ b.toInt then b else a)
  | .minu x f => some (x, f, fun a b => if a.toNat ≤ b.toNat then a else b)
  | .maxu x f => some (x, f, fun a b => if a.toNat ≤ b.toNat then b else a)
  | .slt x f => some (x, f, fun a b => if a.toInt < b.toInt then 1 else 0)
  | .sltu x f => some (x, f, fun a b => if a.toNat < b.toNat then 1 else 0)
  | _ => none

/-- An integer as the bits of an INT32 result: limited to the range with sat, modulo 2^32 without (R110). -/
def i32 (sat : Bool) (x : Int) : Nat := (BitVec.ofInt 32 (if sat then max (-2147483648) (min x 2147483647) else x)).toNat

/-- The signed value of a 32-bit element. -/
def s32 (a : Nat) : Int := (BitVec.ofNat 32 a).toInt

/-- A vector elementwise instruction: its context, its fields, and the result of its row of the table (R256) on one pair of
elements under ftz. -/
def vopRow : Instr → Option (Ctx × Vop × (Bool → Nat → Nat → Nat))
  | .vadd x f => some (x, f, fun z a b => if f.fp then (fadd z a b).1 else i32 f.sat (s32 a + s32 b))
  | .vsub x f => some (x, f, fun z a b => if f.fp then (fsub z a b).1 else i32 f.sat (s32 a - s32 b))
  | .vmul x f => some (x, f, fun z a b => if f.fp then (fmul z a b).1 else i32 f.sat (s32 a * s32 b))
  | .vmin x f => some (x, f, fun z a b => if f.fp then (fminmax z false a b).1 else if s32 a ≤ s32 b then a else b)
  | .vmax x f => some (x, f, fun z a b => if f.fp then (fminmax z true a b).1 else if s32 a ≤ s32 b then b else a)
  | .vand x f => some (x, f, fun _ a b => a &&& b)
  | .vor x f => some (x, f, fun _ a b => a ||| b)
  | .vxor x f => some (x, f, fun _ a b => a ^^^ b)
  | .vshl x f => some (x, f, fun _ a b => i32 f.sat (s32 a * 2 ^ (b % 32)))
  | .vsra x f => some (x, f, fun _ a b => i32 false (s32 a / 2 ^ (b % 32)))
  | .vcvti x f => some (x, f, fun z a _ => intBits 32 (fToInt z a (-2147483648) 2147483647 32 f.sat).1)
  | .vcvtf x f => some (x, f, fun _ a _ => intToF32 (s32 a))
  | .vcopy x f => some (x, f, fun z a _ => if f.fp then (if isNan32 a then nan32 else (flush32 z a).1) else a)
  | _ => none

/-- The element at position i of operand b of a vector instruction: of the array at hb, or the selected scalar. -/
def vecB (s : State) (x : Ctx) (hb : Nat) (i : Nat) : VSrc → Nat
  | .arr _ => s.le (hb + 4 * i) 4
  | .sel v => (s.sel x v).toNat

/-- The registers of core p in which vector, stream and matrix commands leave flags and counts. -/
def FlagReg (p a : Nat) : Prop := a = Reg.CORE_NUMSTAT p ∨ a = Reg.CORE_SEPOISON p ∨ a = Reg.CORE_SESTAT p

end Sys2Proof.Safety
end

