-- ==== Sys2Proof/Certificates/Slice0/Obligations.lean ====
section
/-! DEFINITION. The statements for the provers, in the order of OBLIGATIONS.json. -/

section

open Sys2Proof Sys2Proof.Machine Sys2Proof.Safety

/-- For every command c, state s and queue rest: step with c at the front of the queue is exec of c on s with the rest of
the queue; on an empty queue step answers the same state (the model's choice, assumption 1). -/
def Obligations.StepRunsFront : Prop :=
  (∀ (c : Instr) (s : State) (rest : List Instr), step { s with pending := c :: rest } = exec c { s with pending := rest }) ∧
  ∀ s : State, s.pending = [] → step s = .next s

/-- Whenever the sequencer of the context of a weft instruction does not issue (a woven context of a core that is not
RUNNING or has a park pending; a loose context without a running job), the instruction changes nothing at all,
ill-formed ones included. An instruction whose operands its encoding does not admit (a reserved selector, a reserved
field value, an immediate out of range) and that reaches a sequencer raises ILLEGAL with info [12] = 1 and its major
and minor opcode, those of its word, in info [11:0]; for MPASS while no ganging change is pending. -/
def Obligations.WeftReachesSequencer : Prop :=
  (∀ (i : Instr) (x : Ctx) (s : State), weftCtx i = some x → s.canIssue x = false → exec i s = .next s) ∧
  ∀ (i : Instr) (x : Ctx) (s : State), weftCtx i = some x → s.canIssue x = true → i.wf = false →
    (∀ f, i = .mpass x f → s.bit (Reg.CORE_GANG x.core) 4 = false) →
    ∃ w, encodeWeft i = some w ∧
      exec i s = .next (s.weftFault x 0x02 (field w 58 6 + field w 52 6 * 64 + 0x1000) 0)

/-- For every weft instruction whose operands its encoding admits, at every value of every operand: it has a word, the
word has 64 bits, and the decoder reads that instruction back from it. No bit of an encoding is dropped. -/
def Obligations.WeftRoundTrip : Prop :=
  ∀ (i : Instr) (x : Ctx), weftCtx i = some x → i.wf = true →
    ∃ w, encodeWeft i = some w ∧ w < 2 ^ 64 ∧ decodeWeft x w = some i

/-- The three words that the weft reference writes out (an SE.XFER, an MPASS and a REQ) and words composed from the
encoding tables field by field decode to the instructions they stand for; a word with a reserved selector and one with
an undefined opcode decode to none. -/
def Obligations.WeftWordExamples : Prop :=
  let x : Ctx := .woven 0
  decodeWeft x 0x2003311580800000 = some (.seXfer x ⟨3, false, 0x311, true, 6, 32, 0, 0, false, 0, 0⟩) ∧
  decodeWeft x 0x300087F27B7E4A00 = some (.mpass x ⟨0, 2, 63, true, 2, false, 0xF6, 0x3F, 2, 5⟩) ∧
  decodeWeft x 0x440681010410FCD0 = some (.req x ⟨false, 6, true, 32, 0, true, 0, 1, false, 2, 63, 3, 4⟩) ∧
  decodeWeft x 0 = some (.nop x) ∧
  decodeWeft x (0x02 * 2 ^ 58 + 0x01 * 2 ^ 52 + 1 * 2 ^ 47 + 2 * 2 ^ 40 + 7) = some (.sub x ⟨1, 2, .imm 7⟩) ∧
  decodeWeft x (0x01 * 2 ^ 58 + 0x0B * 2 ^ 52 + 4 * 2 ^ 47 + 0x41 * 2 ^ 40 + 5 * 2 ^ 33) = some (.min x ⟨4, 0x41, .sel 5⟩) ∧
  decodeWeft x (0x05 * 2 ^ 58 + 0x01 * 2 ^ 52 + 3 * 2 ^ 45 + 9 * 2 ^ 41 + 0xFFFC) = some (.sst x 3 9 0xFFFC) ∧
  decodeWeft x (0x01 * 2 ^ 58 + 0x0B * 2 ^ 52 + 4 * 2 ^ 47 + 0x30 * 2 ^ 40 + 5 * 2 ^ 33) = none ∧
  decodeWeft x (0x00 * 2 ^ 58 + 0x0B * 2 ^ 52) = none

/-- In every issuing context, woven or loose, with its registers c: NOP goes on at pc + 1; JUMP at its target; CALL pushes
pc + 1 and goes on at its target, or raises STACK info 0 with four calls open; RET pops, or raises STACK info 1 with
no call open and LOOP info 1 when a loop of this call is open; LOOP with a count above 0 opens a loop level with
count, first and last instruction and call depth and goes on at pc + 1, with count 0 skips the body, and raises LOOP
info 0 with four loops open. -/
def Obligations.WeftControlFlow : Prop :=
  ∀ (x : Ctx) (s : State), s.canIssue x = true →
    let c := s.ctx x
    exec (.nop x) s = .next (s.goto x (c.pc + 1)) ∧
    (∀ t : BitVec 20, exec (.jump x t) s = .next (s.goto x t.toNat)) ∧
    (∀ t : BitVec 20, exec (.call x t) s = .next (
      if c.sp = 4 then s.weftFault x 0x03 0 0
      else (s.setCtx x { c with stack := Tbl.set (fun _ => 0) c.stack c.sp (c.pc + 1), sp := c.sp + 1 }).goto x t.toNat)) ∧
    exec (.ret x) s = .next (
      if c.sp = 0 then s.weftFault x 0x03 1 0
      else if 0 < c.depth ∧ Tbl.get (fun _ => 0) c.lframe (c.depth - 1) = c.sp then s.weftFault x 0x04 1 0
      else (s.setCtx x { c with sp := c.sp - 1 }).goto x (Tbl.get (fun _ => 0) c.stack (c.sp - 1))) ∧
    ∀ (n : LoopCount) (e : BitVec 20), n.wf = true →
      let v : Word := match n with | .imm k => k.setWidth 32 | .sel r => s.sel x r
      exec (.loop x n e) s = .next (
        if c.depth = 4 then s.weftFault x 0x04 0 0
        else if v = 0 then s.goto x (e.toNat + 1)
        else (s.setCtx x { c with
          lc := Tbl.set (fun _ => 0) c.lc c.depth v
          lstart := Tbl.set (fun _ => 0) c.lstart c.depth (c.pc + 1)
          lend := Tbl.set (fun _ => 0) c.lend c.depth e.toNat
          lframe := Tbl.set (fun _ => 0) c.lframe c.depth c.sp
          depth := c.depth + 1 }).goto x (c.pc + 1))

/-- NOP, JUMP, CALL, RET and LOOP of a woven context that raise nothing: no byte of memory, no other core and no register
but this core's CORE_STATUS changes; of the core itself only the sequencer's context changes, and its scalar, address
and parameter registers keep their values. -/
def Obligations.WovenControlFrame : Prop :=
  ∀ (p : Fin 72) (s : State) (i : Instr), s.canIssue (.woven p) = true →
    let c := (s.core p.val).woven
    (i = .nop (.woven p) ∨ (∃ t, i = .jump (.woven p) t) ∨ (c.sp < 4 ∧ ∃ t, i = .call (.woven p) t) ∨
      (0 < c.sp ∧ (c.depth = 0 ∨ Tbl.get (fun _ => 0) c.lframe (c.depth - 1) ≠ c.sp) ∧ i = .ret (.woven p)) ∨
      (c.depth < 4 ∧ ∃ n e, LoopCount.wf n = true ∧ i = .loop (.woven p) n e)) →
    Gives (exec i s) fun t =>
      t = { s with regs := t.regs, cores := t.cores } ∧ (∀ a, a ≠ Reg.CORE_STATUS p.val → t.reg a = s.reg a) ∧
      SameCores s t p.val ∧
      ∃ k : Context, t.core p.val = { s.core p.val with woven := k } ∧ k.s = c.s ∧ k.a = c.a ∧ k.p = c.p

/-- NOP as the last instruction of the innermost open loop of a woven context, inside its program: with more than one
iteration left, counting the current one, the loop counter falls by one, the loop stays open and the sequencer
continues at the body's first instruction. With one iteration left, and no enclosing loop that ends at the same
instruction, the counter becomes 0, the level closes and the sequencer continues behind the body. Away from the last
instruction no counter and no level changes. Nothing else of the context changes. -/
def Obligations.LoopBodyEnd : Prop :=
  ∀ (p : Fin 72) (s : State) (n : Nat), s.canIssue (.woven p) = true → s.progLen (.woven p) = some n →
    let c := (s.core p.val).woven
    let lv := fun (t : Tbl Nat) (d : Nat) => Tbl.get (fun _ => 0) t d
    c.pc + 1 < n →
    (∀ d, c.depth = d + 1 → lv c.lend d = c.pc → c.getL d ≠ 1 → lv c.lstart d < n →
      Gives (exec (.nop (.woven p)) s) fun t => t.coreState p.val = 1 ∧
        (t.core p.val).woven = { c with pc := lv c.lstart d, lc := Tbl.set (fun _ => 0) c.lc d (c.getL d - 1) }) ∧
    (∀ d, c.depth = d + 1 → lv c.lend d = c.pc → c.getL d = 1 → (d = 0 ∨ lv c.lend (d - 1) ≠ c.pc) →
      Gives (exec (.nop (.woven p)) s) fun t => t.coreState p.val = 1 ∧
        (t.core p.val).woven = { c with pc := c.pc + 1, lc := Tbl.set (fun _ => 0) c.lc d 0, depth := d }) ∧
    ((c.depth = 0 ∨ lv c.lend (c.depth - 1) ≠ c.pc) →
      Gives (exec (.nop (.woven p)) s) fun t => t.coreState p.val = 1 ∧
        (t.core p.val).woven = { c with pc := c.pc + 1 })

/-- Beyond the last instruction of a woven program the core is WAITING with wait = 4 (tick boundary); a loose job whose
program has run out ends with end code DONE. Shown on NOP outside every loop. -/
def Obligations.ProgramEndWaits : Prop :=
  (∀ (p : Fin 72) (s : State) (n : Nat), s.canIssue (.woven p) = true → s.progLen (.woven p) = some n →
    (s.core p.val).woven.depth = 0 → n ≤ (s.core p.val).woven.pc + 1 →
    Gives (exec (.nop (.woven p)) s) fun t => t.coreState p.val = 2 ∧ t.fld (Reg.CORE_STATUS p.val) 4 3 = 4) ∧
  ∀ (p : Fin 72) (k : Fin 2) (s : State) (j : Job), s.canIssue (.loose p k) = true → s.loosejob p.val k.val = some j →
    j.ctx.depth = 0 → j.count ≤ j.ctx.pc + 1 →
    Gives (exec (.nop (.loose p k)) s) fun t => (∀ m ∈ t.jobs.jobs, m.num ≠ j.num) ∧
      t.byte (j.descAddr + 48) = 1

/-- HALT of a woven context: the core is HALTED, its halt latch holds reason HALT_INSN (0x01) of class program with info 0
and the sequencer's instruction index, and the pick number; no other core's state register changes and no byte of
memory changes on a core without a role. HALT of a loose context: its job ends with end code DONE. -/
def Obligations.HaltInstruction : Prop :=
  (∀ (p : Fin 72) (s : State), s.canIssue (.woven p) = true → s.roleOf p.val = none → s.failover (p.val / 9) = none →
    Gives (exec (.halt (.woven p)) s) fun t => t.coreState p.val = 3 ∧
      t.regN (Reg.CORE_HALT_PC p.val) = (s.core p.val).woven.pc % 2 ^ 20 ∧
      t.fld (Reg.CORE_HALT_REASON p.val) 0 8 = 1 ∧ t.fld (Reg.CORE_HALT_REASON p.val) 8 2 = 1 ∧
      t.fld (Reg.CORE_HALT_REASON p.val) 16 16 = 0 ∧ t.reg64 (Reg.CORE_HALT_PICK_LO p.val) = s.pickNow ∧
      SameMem s t ∧ SameCores s t p.val ∧
      ∀ a, a ∉ [Reg.CORE_STATUS p.val, Reg.CORE_HALT_PC p.val, Reg.CORE_HALT_REASON p.val, Reg.CORE_HALT_PICK_LO p.val,
        Reg.CORE_HALT_PICK_LO p.val + 4, Reg.CORE_HALT_ADDR_LO p.val, Reg.CORE_HALT_ADDR_LO p.val + 4] → t.reg a = s.reg a) ∧
  (∀ (p : Fin 72) (s : State), s.canIssue (.woven p) = true → exec (.halt (.woven p)) s = .next (s.haltCore p.val 0x01 0 0 false)) ∧
  ∀ (p : Fin 72) (k : Fin 2) (s : State) (j : Job), s.canIssue (.loose p k) = true → s.loosejob p.val k.val = some j →
    exec (.halt (.loose p k)) s = .next (s.endJob j 1 0)

/-- ADD, SUB, MUL, MULHS, MULHU, AND, OR, XOR, SHL, SHR, SRA, MIN, MAX, MINU, MAXU, SLT and SLTU, register and immediate
form, woven and loose: rd takes the table's result of the two sources (wrapping sum, difference and low product, high
signed and unsigned product, bitwise operations, shifts by b modulo 32, signed and unsigned minimum and maximum and
comparison), computed on their integer values. MOVI loads its 32-bit immediate. MOVA loads a 40-bit immediate into an
address register; ADDA, ADDAI and MADDA add to an address register, modulo 2^40, the sign-extended selected value, the
sign-extended immediate, and the product of the sign-extended selected value and the sign-extended 16-bit immediate;
MOVAS zero-extends the selected value. The sequencer then goes on, and nothing else changes. -/
def Obligations.ScalarAlu : Prop :=
  (∀ (i : Instr) (x : Ctx) (f : Alu) (g : Word → Word → Word) (s : State), aluRow i = some (x, f, g) → s.canIssue x = true →
    f.wf = true →
    exec i s = .next ((s.modCtx x (fun c => c.setS f.rd.toNat (g (s.sel x f.sa) (s.bsrc x f.b)))).advance x)) ∧
  ∀ (x : Ctx) (s : State), s.canIssue x = true →
    let setA := fun (n : Nat) (v : Int) => s.modCtx x (fun c => c.setA n (BitVec.ofInt 40 v))
    let a := fun (n : BitVec 4) => (((s.ctx x).getA n.toNat).toNat : Int)
    (∀ (rd : BitVec 5) (v : BitVec 32), exec (.movi x rd v) s = .next ((s.modCtx x (fun c => c.setS rd.toNat v)).advance x)) ∧
    (∀ (ad : BitVec 4) (v : BitVec 40), exec (.mova x ad v) s = .next ((setA ad.toNat v.toNat).advance x)) ∧
    (∀ (ad an : BitVec 4) (r : BitVec 7), selOk r = true →
      exec (.adda x ad an r) s = .next ((setA ad.toNat (a an + (s.sel x r).toInt)).advance x)) ∧
    (∀ (ad an : BitVec 4) (v : BitVec 32), exec (.addai x ad an v) s = .next ((setA ad.toNat (a an + v.toInt)).advance x)) ∧
    (∀ (ad an : BitVec 4) (r : BitVec 7) (v : BitVec 16), selOk r = true →
      exec (.madda x ad an r v) s = .next ((setA ad.toNat (a an + (s.sel x r).toInt * v.toInt)).advance x)) ∧
    ∀ (ad : BitVec 4) (r : BitVec 7), selOk r = true →
      exec (.movas x ad r) s = .next ((setA ad.toNat (s.sel x r).toNat).advance x)

/-- Each of the seventeen scalar ALU instructions in a woven context: its destination holds the result, every other scalar
register, every address register, every byte of memory, every other core and every register but this core's
CORE_STATUS keep their values; outside every loop the sequencer stands at the next instruction. -/
def Obligations.ScalarAluFrame : Prop :=
  ∀ (i : Instr) (p : Fin 72) (f : Alu) (g : Word → Word → Word) (s : State), aluRow i = some (.woven p, f, g) →
    s.canIssue (.woven p) = true → f.wf = true →
    let c := (s.core p.val).woven
    Gives (exec i s) fun t =>
      t = { s with regs := t.regs, cores := t.cores } ∧ (∀ a, a ≠ Reg.CORE_STATUS p.val → t.reg a = s.reg a) ∧
      SameCores s t p.val ∧
      ∃ k : Context, t.core p.val = { s.core p.val with woven := k } ∧
        k.getS f.rd.toNat = g (s.sel (.woven p) f.sa) (s.bsrc (.woven p) f.b) ∧
        (∀ n, n ≠ f.rd.toNat → k.getS n = c.getS n) ∧ k.a = c.a ∧ k.stack = c.stack ∧ k.sp = c.sp ∧
        (c.depth = 0 → k.pc = c.pc + 1 ∧ k.lc = c.lc)

/-- The address is the address register plus the sign-extended offset modulo 2^40. Where it is aligned to the access and
the access lies in the core's own scratchpad, seen through the physical window or the alias of its role, SLD loads the
32-bit word into rd, LDA loads bits [39:0] of the 64-bit word into ad, and SST stores the selected value: its four
bytes read as the value's bytes, least significant first, and every other byte of memory as before. In every other
case the three raise SE_ADDR with slot 0xF and index 0xFFF. -/
def Obligations.ScalarMemory : Prop :=
  ∀ (x : Ctx) (an : BitVec 4) (off : BitVec 16) (s : State), s.canIssue x = true →
    let a := (((s.ctx x).getA an.toNat) + off.signExtend 40).toNat
    (∀ (rd : BitVec 5) (h : Nat), a % 4 = 0 → s.ownScratch x a 4 = some h →
      exec (.sld x rd an off) s =
        .next ((s.modCtx x (fun c => c.setS rd.toNat (BitVec.ofNat 32 (leVal (s.bytes h 4))))).advance x)) ∧
    (∀ (ad : BitVec 4) (h : Nat), a % 8 = 0 → s.ownScratch x a 8 = some h →
      exec (.lda x ad an off) s =
        .next ((s.modCtx x (fun c => c.setA ad.toNat (BitVec.ofNat 40 (leVal (s.bytes h 8))))).advance x)) ∧
    (∀ (r : BitVec 7) (h : Nat), selOk r = true → a % 4 = 0 → s.ownScratch x a 4 = some h →
      Issues x (exec (.sst x r an off) s) fun u =>
        u = { s with mem := u.mem } ∧ SameMemBut s u h 4 ∧
        ∀ k, k < 4 → u.byte (h + k) = (s.sel x r).toNat / 256 ^ k % 256) ∧
    (∀ (rd : BitVec 5), (a % 4 ≠ 0 ∨ s.ownScratch x a 4 = none) →
      exec (.sld x rd an off) s = .next (s.weftFault x 0x0A (0xF + 0xFFF * 16) a)) ∧
    (∀ (r : BitVec 7), selOk r = true → (a % 4 ≠ 0 ∨ s.ownScratch x a 4 = none) →
      exec (.sst x r an off) s = .next (s.weftFault x 0x0A (0xF + 0xFFF * 16) a)) ∧
    ∀ (ad : BitVec 4), (a % 8 ≠ 0 ∨ s.ownScratch x a 8 = none) →
      exec (.lda x ad an off) s = .next (s.weftFault x 0x0A (0xF + 0xFFF * 16) a)

/-- In an issuing woven context: CFG.GANG puts its mode into CORE_GANG.mode and sets the change pending; CFG.NUM puts ftz
and stat_mode into CORE_NUMCFG. Every other bit of the two registers but the pending bits, every other register and
all memory are unchanged, and the sequencer goes on. In the register form a value above 3 (CFG.GANG), a value above 7
or with stat_mode 0b11 (CFG.NUM) raises ILLEGAL and changes neither. -/
def Obligations.ConfigWrites : Prop :=
  ∀ (p : Fin 72) (s : State), s.canIssue (.woven p) = true →
    (∀ v : GangArg, v.wf = true →
      let n := match v with | .imm m => m.toNat | .sel r => (s.sel (.woven p) r).toNat
      (n < 4 → Issues (.woven p) (exec (.cfgGang (.woven p) v) s) fun u =>
        OnlyRegs s u (fun a => a = Reg.CORE_GANG p.val) ∧ u.fld (Reg.CORE_GANG p.val) 0 2 = n ∧
        u.bit (Reg.CORE_GANG p.val) 4 = true ∧ u.fld (Reg.CORE_GANG p.val) 2 2 = s.fld (Reg.CORE_GANG p.val) 2 2) ∧
      (4 ≤ n → exec (.cfgGang (.woven p) v) s = .next (s.weftFault (.woven p) 0x02 (0x04 + 0x1000) 0))) ∧
    ∀ v : NumArg, v.wf = true →
      let n := match v with | .imm z m => (if z then 1 else 0) + m.toNat * 2 | .sel r => (s.sel (.woven p) r).toNat
      (n < 6 → Issues (.woven p) (exec (.cfgNum (.woven p) v) s) fun u =>
        OnlyRegs s u (fun a => a = Reg.CORE_NUMCFG p.val) ∧ u.bit (Reg.CORE_NUMCFG p.val) 0 = decide (n % 2 = 1) ∧
        u.fld (Reg.CORE_NUMCFG p.val) 1 2 = n / 2) ∧
      (6 ≤ n → exec (.cfgNum (.woven p) v) s = .next (s.weftFault (.woven p) 0x02 (0x04 + 64 + 0x1000) 0))

/-- WAITPICK n on a woven core, n immediate or register: with n not above the operand before, or above the tick length,
PICK_ORDER and nothing is opened; with n equal to the tick length the core waits for the tick boundary (wait = 4);
with n at most the pick offset reached, section n opens and the sequencer goes on at once; otherwise the core waits
for pick n (wait = 1) with n remembered. No memory changes unless the core halts, and no other core. -/
def Obligations.WaitpickOrder : Prop :=
  ∀ (p : Fin 72) (v : PickArg) (s : State), s.canIssue (.woven p) = true → v.wf = true →
    let n := match v with | .imm k => k.toNat | .sel r => (s.sel (.woven p) r).toNat
    let t := s.coreTick p.val
    let last := (s.core p.val).lastWait
    ((n ≤ last ∨ t < n) → exec (.waitpick (.woven p) v) s = .next (s.weftFault (.woven p) 0x05 0 (n % 2 ^ 20))) ∧
    (last < n → n = t → Gives (exec (.waitpick (.woven p) v) s) fun u => u.coreState p.val = 2 ∧
      u.fld (Reg.CORE_STATUS p.val) 4 3 = 4 ∧ (u.core p.val).woven = (s.core p.val).woven ∧ SameMem s u ∧ SameCores s u p.val) ∧
    (last < n → n < t → n ≤ s.coreOffset p.val → Issues (.woven p) (exec (.waitpick (.woven p) v) s) fun u =>
      (u.core p.val).lastWait = n ∧ u.coreState p.val = 1 ∧ (u.core p.val).woven = (s.core p.val).woven ∧ SameMem s u ∧
      SameCores s u p.val) ∧
    (last < n → n < t → s.coreOffset p.val < n → Gives (exec (.waitpick (.woven p) v) s) fun u => u.coreState p.val = 2 ∧
      u.fld (Reg.CORE_STATUS p.val) 4 3 = 1 ∧ (u.core p.val).waitN = n ∧ (u.core p.val).lastWait = last ∧
      (u.core p.val).woven = (s.core p.val).woven ∧ SameMem s u ∧ SameCores s u p.val)

/-- SYNC of a core that holds a role, with its own bit in the mask: when the barrier has not been used and the mask names
another core, the core waits (wait = 2) at the barrier, which records its arrival and nothing else of memory or of the
other cores changes; when the mask names the core alone, the sequencer goes on. A SYNC without the own bit is ILLEGAL.
PHASE.HINT with level 0 to 2 on a core that holds a role queues the level for its role from the pick of issue plus the
lead, 64 for lead 0; no byte of memory and no core changes but the advance of the sequencer. -/
def Obligations.SyncBarrier : Prop :=
  ∀ (p : Fin 72) (l : Nat) (s : State), s.canIssue (.woven p) = true → s.roleOf p.val = some l →
    (∀ (b : BitVec 3) (m : BitVec 8), m.toNat.testBit (l % 8) = true → s.barrier (l / 8) b.toNat = none →
      m.toNat ≠ 2 ^ (l % 8) → Gives (exec (.sync (.woven p) b m) s) fun t =>
        t.coreState p.val = 2 ∧ t.fld (Reg.CORE_STATUS p.val) 4 3 = 2 ∧ (t.core p.val).syncAt = some b.toNat ∧
        t.barrier (l / 8) b.toNat = some ⟨m.toNat, 2 ^ (l % 8), false, s.pickNow⟩ ∧ SameMem s t ∧ SameCores s t p.val ∧
        ∀ a, a ≠ Reg.CORE_STATUS p.val → t.reg a = s.reg a) ∧
    (∀ (b : BitVec 3) (m : BitVec 8), m.toNat = 2 ^ (l % 8) → s.barrier (l / 8) b.toNat = none →
      s.waitersAt (l / 8) b.toNat = [] → Issues (.woven p) (exec (.sync (.woven p) b m) s) fun u =>
        u = { s with weave := u.weave } ∧ u.barrier (l / 8) b.toNat = some ⟨m.toNat, 2 ^ (l % 8), false, s.pickNow⟩) ∧
    (∀ (b : BitVec 3) (m : BitVec 8), m.toNat.testBit (l % 8) = false →
      exec (.sync (.woven p) b m) s = .next (s.weftFault (.woven p) 0x02 (7 * 64 + 0x1000) 0)) ∧
    ∀ (v : BitVec 2) (n : BitVec 11), v.toNat < 3 →
      Issues (.woven p) (exec (.phaseHint (.woven p) v n) s) fun u =>
        u.weave.hints = s.weave.hints ++ [(l, v.toNat, s.pickNow + (if n.toNat = 0 then 64 else n.toNat))] ∧ SameMem s u ∧
        u.cores = s.cores

/-- CARRY.BEGIN of a woven core with a role that declares the region, none open: a region already decided in the tick is
opened with its decision. At its first use, with the map bits readable: some bit set, no valid previous output, or a
carry count at the limit: computed (1), the valid mark set and the count 0. No bit set with a valid previous output
below the limit, or a frame of outcome 0 or 3 with a valid previous output: carried (2), the carry count rising by one
only in the first of these cases. A frame of outcome 0 or 3 without a previous output: gated without output (3).
Memory and registers are then changed by the output ranges of the region alone. CARRY.END closes the open region; it
changes nothing else but the sequencer. Without an open region it is ILLEGAL. -/
def Obligations.CarryBeginEnd : Prop :=
  ∀ (p : Fin 72) (s : State), s.canIssue (.woven p) = true →
    (∀ (r : BitVec 12) (l : Nat) (sec : CoreSec) (rg : CarryRegion), r.toNat ≠ 0 → (s.core p.val).region = none →
      s.roleOf p.val = some l → s.coreSec p.val = some sec → sec.regions.find? (fun g => g.region == r.toNat) = some rg →
      let done := Tbl.get (fun _ => 0) (s.core p.val).decided r.toNat
      let limit := match s.weave.active with | some im => im.carryLimit | none => 0
      let keep := s.carryValid l r.toNat && decide (s.carryCount l r.toNat < limit)
      (done ≠ 0 → Issues (.woven p) (exec (.carryBegin (.woven p) r) s) fun u =>
        (u.core p.val).region = some r.toNat ∧ (u.core p.val).decided = (s.core p.val).decided ∧ SameMem s u ∧ u.regs = s.regs) ∧
      (∀ any, done = 0 → s.readMap rg = .bits any → (any = true ∨ keep = false) →
        Issues (.woven p) (exec (.carryBegin (.woven p) r) s) fun u =>
          (u.core p.val).region = some r.toNat ∧ Tbl.get (fun _ => 0) (u.core p.val).decided r.toNat = 1 ∧
          u.carryValid l r.toNat = true ∧ u.carryCount l r.toNat = 0 ∧ SameMem s u ∧ u.regs = s.regs) ∧
      (done = 0 → s.readMap rg = .carryAll →
        Issues (.woven p) (exec (.carryBegin (.woven p) r) s) fun u =>
          (u.core p.val).region = some r.toNat ∧
          Tbl.get (fun _ => 0) (u.core p.val).decided r.toNat = (if s.carryValid l r.toNat then 2 else 3) ∧
          u.carryValid l r.toNat = s.carryValid l r.toNat ∧ u.carryCount l r.toNat = s.carryCount l r.toNat ∧
          (sec.outsOf rg = [] → SameMem s u ∧ u.regs = s.regs)) ∧
      (done = 0 → s.readMap rg = .bits false → keep = true →
        Issues (.woven p) (exec (.carryBegin (.woven p) r) s) fun u =>
          (u.core p.val).region = some r.toNat ∧ Tbl.get (fun _ => 0) (u.core p.val).decided r.toNat = 2 ∧
          u.carryValid l r.toNat = true ∧ u.carryCount l r.toNat = s.carryCount l r.toNat + 1 ∧
          (sec.outsOf rg = [] → SameMem s u ∧ u.regs = s.regs))) ∧
    (∀ r, (s.core p.val).region = some r → exec (.carryEnd (.woven p)) s =
      .next ((s.modCore p.val (fun c => { c with region := none })).advance (.woven p))) ∧
    ((s.core p.val).region = none → exec (.carryEnd (.woven p)) s = .next (s.weftFault (.woven p) 0x02 (0x0A * 64 + 0x1000) 0))

/-- WAITPICK, SYNC, CARRY.BEGIN, CARRY.END, CFG.GANG and CFG.NUM in an issuing loose context raise ILLEGAL with their
opcodes, and PHASE.HINT raises SE_FORMAT (the model's reading of R242 and R246 for programs the threader rejects,
assumption 12): the job ends with a program fault. -/
def Obligations.LooseForbidden : Prop :=
  ∀ (p : Fin 72) (k : Fin 2) (s : State), s.canIssue (.loose p k) = true →
    let x : Ctx := .loose p k
    (∀ n, exec (.waitpick x n) s = .next (s.weftFault x 0x02 (0x06 * 64 + 0x1000) 0)) ∧
    (∀ b m, exec (.sync x b m) s = .next (s.weftFault x 0x02 (0x07 * 64 + 0x1000) 0)) ∧
    (∀ r, exec (.carryBegin x r) s = .next (s.weftFault x 0x02 (0x09 * 64 + 0x1000) 0)) ∧
    exec (.carryEnd x) s = .next (s.weftFault x 0x02 (0x0A * 64 + 0x1000) 0) ∧
    (∀ v, exec (.cfgGang x v) s = .next (s.weftFault x 0x02 (0x04 + 0x1000) 0)) ∧
    (∀ v, exec (.cfgNum x v) s = .next (s.weftFault x 0x02 (0x04 + 64 + 0x1000) 0)) ∧
    (∀ v n, v ≠ 3 → exec (.phaseHint x v n) s = .next (s.weftFault x 0x08 0 0)) ∧
    ∀ j, s.loosejob p.val k.val = some j → s.weftFault x 0x02 0 0 = s.endJob j 2 0x02

/-- SE.XFER whose entry resolves to a valid descriptor, a STORE: slot k becomes active with kind, index, descriptor and
origins, at position 0. A LOAD, outside a gated region and with every landing slot it reads occupied: slot k becomes
active and holds one element for each position of its iteration. No byte of memory changes but what a cache keeps; no
other core changes. An entry that fails its check, for an index not known at load to be a FILL: slot k holds its
cause, a poisoned transfer, CORE_SESTAT.desc_err is set and no memory changes. A resolved descriptor that no stream
engine performs: SE_FORMAT with slot and index. SE.INV posts one index, a register's index or all for the next pick
boundary. -/
def Obligations.StreamTransferStarts : Prop :=
  ∀ (x : Ctx) (s : State), s.canIssue x = true →
    (∀ (f : Xfer) (s1 : State) (b : List Nat) (pls : List (Option (Nat × Nat))), f.wf = true →
      let p := x.core
      let c := s.ctx x
      let idx := if f.ireg then (c.getS (f.idx.toNat % 32)).toNat % 4096 else f.idx.toNat
      let os := if f.oen then (c.getS f.osr.toNat).toNat else 0
      let org := [f.o0.toNat, f.o1.toNat, f.o2.toNat, os % 65536, os / 65536]
      let aoff := if f.aen then (c.getA f.an.toNat).toNat else 0
      let d := Desc.ofBytes b
      (s.resolve p idx = (s1, b, none) → d.ok = true → d.kind = 2 → (isLoose x = false ∨ d.space ≠ 2) →
        s1.plan p d org aoff [] true = .inr pls →
        Issues x (exec (.seXfer x f) s) fun u => (u.slot p f.slot.toNat).active = true ∧ (u.slot p f.slot.toNat).kind = 2 ∧
          (u.slot p f.slot.toNat).index = idx ∧ (u.slot p f.slot.toNat).desc = some d ∧ (u.slot p f.slot.toNat).org = org ∧
          (u.slot p f.slot.toNat).pos = 0 ∧ SameMem s1 u ∧ SameCores s1 u p ∧ u.regs = s1.regs) ∧
      (s.resolve p idx = (s1, b, none) → d.ok = true → d.kind = 0 → (isLoose x = false ∨ d.space ≠ 2) →
        s.gated x = false → s1.plan p d org aoff [] false = .inr pls →
        (s1.landingOf p (homesOf d.elemBytes pls)).all (fun e => s1.isLanded p e.1) = true →
        Issues x (exec (.seXfer x f) s) fun u => (u.slot p f.slot.toNat).active = true ∧ (u.slot p f.slot.toNat).kind = 0 ∧
          (u.slot p f.slot.toNat).index = idx ∧ (u.slot p f.slot.toNat).desc = some d ∧
          (u.slot p f.slot.toNat).elems.length = pls.length ∧ SameMem s1 u ∧ SameCores s1 u p) ∧
      (∀ cause, s.resolve p idx = (s1, b, some cause) →
        (f.ireg = true ∨ ∀ e, s.checkedDesc x idx = some e → e.kind ≠ 3 ∨ s.gated x = true) →
        Issues x (exec (.seXfer x f) s) fun u => (u.slot p f.slot.toNat).bad = some cause ∧
          u.bit (Reg.CORE_SESTAT p) 0 = true ∧ SameMem s1 u) ∧
      (s.resolve p idx = (s1, b, none) → d.ok = false →
        exec (.seXfer x f) s = .next (s1.weftFault x 0x08 (f.slot.toNat + idx * 16) 0))) ∧
    ∀ v : InvArg, exec (.seInv x v) s = .next ((s.sendInval x.core (match v with
      | .all => none
      | .reg r => some (((s.ctx x).getS r.toNat).toNat % 4096)
      | .idx i => some i.toNat)).advance x)

/-- MPASS on one engine in independent mode, operand pair INT8, reusing the stationary tile, init, all rows unmasked,
vectors all valid, outside a gated region: for every vector m and column n the tile entry holds 2^shf times the sum
over the 32 rows of activation times weight, as integers, reduced modulo 2^32; every byte of memory outside the tiles
written is unchanged; the slot's vectors are consumed; the engine's pass count rises by one up to its ceiling and its
busy count by one cycle a vector. -/
def Obligations.MatrixPassInt8 : Prop :=
  ∀ (x : Ctx) (f : MPass) (s : State) (w : WTile) (d : Desc), s.canIssue x = true → f.wf = true →
    let p := x.core
    let e := f.target.toNat
    let k := f.aslot.toNat
    let m := f.mcount.toNat + 1
    s.bit (Reg.CORE_GANG p) 4 = false → s.fld (Reg.CORE_GANG p) 2 2 = 0 → e < 4 → f.pair.toNat = 0 → f.new = false →
    f.acc = false → f.rsel = 0x3F → f.shf.toNat ≤ 24 → f.t0.toNat + (m + 31) / 32 ≤ 16 → s.gated x = false →
    s.weight p e = some w → w.bytes.length = 1024 → (s.slot p k).active = true → (s.slot p k).kind ≤ 1 →
    (s.slot p k).bad = none → (s.slot p k).desc = some d → (d.fmtEng = 3 ∨ d.fmtEng = 4) → 32 * m ≤ (s.slot p k).elems.length →
    (∀ v ∈ (s.slot p k).elems, v.valid = true) →
    Issues x (exec (.mpass x f) s) fun u =>
      (∀ r n, r < m → n < 32 → u.le (accAddr p e (f.t0.toNat + r / 32) (r % 32) n) 4 =
        (BitVec.ofInt 32 (((List.range 32).map (fun i =>
          actInt d.fmtEng (((s.slot p k).elems.map Elem.bits).getD (32 * r + i) 0) *
            (BitVec.ofNat 8 (w.bytes.getD (32 * i + n) 0)).toInt)).sum * 2 ^ f.shf.toNat)).toNat) ∧
      SameMemBut s u (accAddr p e f.t0.toNat 0 0) (4096 * ((m + 31) / 32)) ∧
      (u.slot p k).elems = (s.slot p k).elems.drop (32 * m) ∧ u.weight p e = some w ∧
      u.regN (Reg.CORE_MEPASS p e) = min (s.regN (Reg.CORE_MEPASS p e) + 1) 0xFFFFFFFF ∧
      u.regN (Reg.CORE_MEBUSY p e) = (s.regN (Reg.CORE_MEBUSY p e) + m) % 2 ^ 32 ∧ SameCores s u p

/-- While a ganging change is pending no pass issues: MPASS changes nothing. Otherwise, on an engine of a core in
independent mode: reuse without a valid weight tile raises ME_CONFIG cause 1; the gang target raises ME_CONFIG cause
2; an activation stream that forms no operand pair raises ME_CONFIG cause 0; tiles past tile 15 raise ACC_RANGE; and a
pass whose vectors have not all arrived waits with wait = 3, changing nothing but the core's state. -/
def Obligations.MatrixPassRefused : Prop :=
  ∀ (p : Fin 72) (f : MPass) (s : State), s.canIssue (.woven p) = true → f.wf = true → f.rsel = 0x3F →
    let x : Ctx := .woven p
    let m := f.mcount.toNat + 1
    let e := f.target.toNat
    let k := f.aslot.toNat
    (s.bit (Reg.CORE_GANG p.val) 4 = true → exec (.mpass x f) s = .next s) ∧
    (s.bit (Reg.CORE_GANG p.val) 4 = false → s.fld (Reg.CORE_GANG p.val) 2 2 = 0 → f.shf = 0 →
      (∀ d, (s.slot p.val k).desc = some d → (s.slot p.val k).feeds = true → actPairs f.pair.toNat d.fmtEng = false →
        exec (.mpass x f) s = .next (s.weftFault x 0x06 (e % 4) 0)) ∧
      ((s.slot p.val k).feeds = false →
        (e < 4 → f.new = false → s.weight p.val e = none → exec (.mpass x f) s = .next (s.weftFault x 0x06 (e % 4 + 4) 0)) ∧
        (e = 4 → f.new = true → exec (.mpass x f) s = .next (s.weftFault x 0x06 (e % 4 + 8) 0)) ∧
        (e < 4 → f.new = true → 16 < f.t0.toNat + (m + 31) / 32 →
          exec (.mpass x f) s = .next (s.weftFault x 0x07 (e + f.t0.toNat * 4 + (m + 31) / 32 * 64) 0)) ∧
        (e < 4 → f.new = false → (s.weight p.val e).isSome = true → f.t0.toNat + (m + 31) / 32 ≤ 16 → s.gated x = false →
          (s.slot p.val k).bad = none →
          exec (.mpass x f) s = .next ((s.modCore p.val (fun c => { c with held := some (.mpass x f), heldPick := s.pickNow })).setCoreState
            p.val 2 3))))

/-- VADD, VSUB, VMUL, VMIN, VMAX, VAND, VOR, VXOR, VSHL, VSRA, VCVTI, VCVTF and VCOPY, integer and floating, saturating
and wrapping, second operand an array or a selected scalar, outside a gated region, with every array aligned in the
core's own scratchpad: element i of the destination holds the table's result of the elements i as they were before the
command, arrays overlapping or not; every byte outside the destination, every other core and every register but the
core's flag registers keep their values. A first source array that is not aligned or does not lie whole in the own
scratchpad raises SE_ADDR with slot 0xF and index 0xFFF. -/
def Obligations.VectorElementwise : Prop :=
  ∀ (i : Instr) (x : Ctx) (f : Vop) (g : Bool → Nat → Nat → Nat) (s : State), vopRow i = some (x, f, g) →
    s.canIssue x = true → i.wf = true →
    let n := f.n.toNat + 1
    ((s.array x f.aA 4 (4 * n)).2 = none →
      exec i s = .next (s.weftFault x 0x0A (0xF + 0xFFF * 16) ((s.ctx x).getA f.aA.toNat).toNat)) ∧
    ∀ ha hb hd : Nat, s.gated x = false →
    (s.array x f.aA 4 (4 * n)).2 = some ha → (∀ r, f.b = .arr r → (s.array x r 4 (4 * n)).2 = some hb) →
    (s.array x f.dA 4 (4 * n)).2 = some hd →
    Issues x (exec i s) fun u =>
      (∀ j, j < n → u.le (hd + 4 * j) 4 = g (s.ftz x) (s.le (ha + 4 * j) 4) (vecB s x hb j f.b) % 2 ^ 32) ∧
      SameMemBut s u hd (4 * n) ∧ SameCores s u x.core ∧ u = { s with regs := u.regs, mem := u.mem, cores := u.cores } ∧
      ∀ a, ¬ FlagReg x.core a → u.reg a = s.reg a

/-- REQ from accumulator tiles inside the sixteen, into an active STORE of matching format and at most 32 columns whose
places are known, parameters in the own scratchpad, outside a gated region: the slot advances by rows times columns,
up to the store's end; CORE_NUMSTAT.sat_seen is set exactly when it was set or some element saturates; the statistics
and max-abs registers keep their values when the instruction names none. A slot without an active STORE of that format
raises SE_FORMAT; tiles past tile 15 raise ACC_RANGE. -/
def Obligations.RequantiseDelivers : Prop :=
  ∀ (x : Ctx) (f : Req) (s : State), s.canIssue x = true → f.wf = true → f.rnd ≠ 3 → f.srcMem = false →
    let p := x.core
    let k := f.oslot.toNat
    let e := f.src.toNat / 16
    let t := f.src.toNat % 16
    let rows := f.rows.toNat + 1
    (16 < t + (rows + 31) / 32 → exec (.req x f) s = .next (s.weftFault x 0x07 (e + t * 4 + (rows + 31) / 32 * 64) 0)) ∧
    (t + (rows + 31) / 32 ≤ 16 → (s.slot p k).active = false →
      exec (.req x f) s = .next (s.weftFault x 0x08 (k + (s.slot p k).index * 16) 0)) ∧
    ∀ (d : Desc) (pa : Nat) (pls : List (Option (Nat × Nat))), t + (rows + 31) / 32 ≤ 16 → (s.slot p k).active = true →
      (s.slot p k).bad = none → (s.slot p k).desc = some d →
      let c := d.cnt.getD 0 0 + 1
      c ≤ 32 → d.kind = 2 → d.fmtEng = reqFmt f.tgt.toNat → 8 ≤ fmtBits d.fmtMem →
      (s.array x f.pA 16 (if f.chan then 16 * (f.cbase.toNat + c) else 16)).2 = some pa →
      s.gated x = false → (s.slot p k).carried = false →
      s.plan p d (s.slot p k).org (s.slot p k).aoff [] true = .inr pls → f.stat = 0 → f.maxabs = 0 →
      Issues x (exec (.req x f) s) fun u =>
        (u.slot p k).pos = (s.slot p k).pos + min (rows * c) (pls.length - (s.slot p k).pos) ∧
        (u.bit (Reg.CORE_NUMSTAT p) 0 = true ↔ s.bit (Reg.CORE_NUMSTAT p) 0 = true ∨
          ∃ v ∈ s.reqElems x f (.tiles e t) pa c, v.r.sat = true) ∧
        ∀ n, n < 256 → u.reg (Reg.CORE_STAT p n) = s.reg (Reg.CORE_STAT p n)

/-- WCOMB outside a gated region, with class tiles inside the sixteen and its destination in the own scratchpad: word (m,
n) holds the class sum 65536·c16 + 256·c8 + c0, absent classes 0, shifted right by sh with rounding to even and
narrowed to INT32 with or without saturation; every byte outside the destination is unchanged. VMAXABS of integer
entries of tiles: the destination register holds the largest absolute value of rows × 32 entries; no memory and no
other scalar register changes. -/
def Obligations.CombineAndMaxabs : Prop :=
  ∀ (x : Ctx) (s : State), s.canIssue x = true → s.gated x = false →
    let p := x.core
    (∀ (f : Wcomb) (d : Nat), f.wf = true →
      let rows := f.rows.toNat + 1
      let fits := fun (c : WClass) => c.present = false ∨ c.tile.toNat + (rows + 31) / 32 ≤ 16
      let val := fun (c : WClass) (m n : Nat) =>
        if c.present then s32 (s.le (accAddr p c.engine.toNat (c.tile.toNat + m / 32) (m % 32) n) 4) else 0
      fits f.c0 → fits f.c8 → fits f.c16 → (s.array x f.dA 4 (128 * rows)).2 = some d →
      Issues x (exec (.wcomb x f) s) fun u =>
        (∀ m n, m < rows → n < 32 → u.le (d + 128 * m + 4 * n) 4 =
          i32 f.sat (rheDiv (val f.c16 m n * 65536 + val f.c8 m n * 256 + val f.c0 m n) (2 ^ f.sh.toNat))) ∧
        SameMemBut s u d (128 * rows) ∧ SameCores s u p) ∧
    ∀ (f : Vmaxabs), f.wf = true → f.srcMem = false → f.fp = false →
      let rows := f.rows.toNat + 1
      let e := f.src.toNat / 16
      let t := f.src.toNat % 16
      t + (rows + 31) / 32 ≤ 16 →
      ∃ mx : Nat, exec (.vmaxabs x f) s = .next ((s.modCtx x (fun c => c.setS f.rd.toNat (BitVec.ofNat 32 mx))).advance x) ∧
        (∀ m n, m < rows → n < 32 → (s32 (s.le (accAddr p e (t + m / 32) (m % 32) n) 4)).natAbs ≤ mx) ∧
        ∃ m n, m < rows ∧ n < 32 ∧ (s32 (s.le (accAddr p e (t + m / 32) (m % 32) n) 4)).natAbs = mx

/-- With a 16-byte aligned block of 272 bytes (STAT.OUT) or 528 bytes (MAXABS.OUT) in DRAM: the block's words hold the
slot's 64 counters, its element and command counts, and the tick number; or the per-tensor and per-channel maxima;
afterwards the copied counters or maxima read 0 and every byte outside the block is unchanged. At any other address
than a writable aligned one both raise SE_ADDR. -/
def Obligations.StatisticsBlocks : Prop :=
  ∀ (x : Ctx) (dA : BitVec 4) (s : State), s.canIssue x = true →
    let p := x.core
    let a := ((s.ctx x).getA dA.toNat).toNat
    (∀ k : BitVec 2, a % 16 = 0 → a + 272 ≤ s.dramBytes → a + 272 ≤ 0x1000000000 →
      Issues x (exec (.statOut x k dA) s) fun u =>
        (∀ w, w < 64 → u.le (a + 4 * w) 4 = s.regN (statWord p k.toNat w) ∧ u.regN (statWord p k.toNat w) = 0) ∧
        u.le (a + 256) 4 = (Tbl.get (fun _ => 0) (s.core p).statElems k.toNat).toNat ∧
        u.le (a + 260) 4 = (Tbl.get (fun _ => 0) (s.core p).statCmds k.toNat).toNat ∧
        u.le (a + 268) 4 = s.regN Reg.WV_TICK ∧ SameMemBut s u a 272 ∧ SameCores s u p) ∧
    (a % 16 = 0 → a + 528 ≤ s.dramBytes → a + 528 ≤ 0x1000000000 →
      Issues x (exec (.maxabsOut x dA) s) fun u =>
        u.le a 4 = s.regN (Reg.CORE_MAXABS_T p) ∧ u.regN (Reg.CORE_MAXABS_T p) = 0 ∧
        (∀ i, i < 128 → u.le (a + 16 + 4 * i) 4 = s.regN (Reg.CORE_MAXABS_C p i) ∧ u.regN (Reg.CORE_MAXABS_C p i) = 0) ∧
        SameMemBut s u a 528 ∧ SameCores s u p) ∧
    (a % 16 ≠ 0 → (∀ k, Gives (exec (.statOut x k dA) s) fun t => ∃ u : State, t = u.weftFault x 0x0A (0xF + 0xFFF * 16) a ∧ u.regs = s.regs) ∧
      Gives (exec (.maxabsOut x dA) s) fun t => ∃ u : State, t = u.weftFault x 0x0A (0xF + 0xFFF * 16) a ∧ u.regs = s.regs)

/-- With a LOAD slot whose valid window descriptor delivers INT32 values and whose elements have all arrived, outside a
gated region, destination in the own scratchpad: POOL with output INT32 writes for window w and channel ch the
maximum, or the average, of that channel's taps, narrowed to INT32 with or without saturation; DWCONV with INT8
weights writes the sum of products of the taps and that channel's weights modulo 2^32. Element (w, ch) lies at
4·(w·channels + ch); no byte outside the output changes; the slot's elements are consumed. -/
def Obligations.WindowOperators : Prop :=
  ∀ (x : Ctx) (s : State) (k : BitVec 4) (d : Desc) (h : Nat), s.canIssue x = true → s.gated x = false →
    let p := x.core
    let t := s.slot p k.toNat
    let c := d.channels
    let n := d.outs
    let wins := windowsOf c d.kernel n (tapsOf d t.org t.aoff (t.elems.take d.total))
    let win := fun (w ch : Nat) => ((wins.getD w []).getD ch [])
    t.active = true → t.kind ≤ 1 → t.bad = none → t.desc = some d → d.total ≤ t.elems.length →
    d.kind = 0 → d.window = true → d.fmtEng = 7 →
    (∀ f : Sys2Proof.Pool, f.wf = true → f.islot = k → f.glob = false → f.ofmt = 1 → (s.array x f.dA 1 (4 * n * c)).2 = some h →
      Issues x (exec (.pool x f) s) fun u =>
        (∀ w ch, w < n → ch < c →
          ∃ v : Int, (if f.avg then poolAvg d (s.ftz x) f (win w ch) else poolMax d (s.ftz x) (win w ch)) = .int v ∧
            u.le (h + 4 * (w * c + ch)) 4 = i32 f.sat v) ∧
        SameMemBut s u h (4 * n * c) ∧ (u.slot p k.toNat).elems = t.elems.drop d.total ∧ SameCores s u p) ∧
    ∀ (f : Dwconv) (wh : Nat), f.wf = true → f.islot = k → f.wfmt = 0 → d.fmtMem ≤ 4 → d.fmtMem ≠ 2 →
      (s.array x f.wA 1 (d.kernel * c)).2 = some wh → (s.array x f.dA 4 (4 * n * c)).2 = some h →
      Issues x (exec (.dwconv x f) s) fun u =>
        (∀ w ch, w < n → ch < c → u.le (h + 4 * (w * c + ch)) 4 =
          (BitVec.ofInt 32 (((List.range d.kernel).map (fun i => s32 (((win w ch).map (fun q => q.e.bits)).getD i 0) *
            (BitVec.ofNat 8 (s.byte (wh + i * c + ch))).toInt)).sum)).toNat) ∧
        SameMemBut s u h (4 * n * c) ∧ (u.slot p k.toNat).elems = t.elems.drop d.total ∧ SameCores s u p

/-- With the parameter block in the own scratchpad, outside a gated region. An invalid block, or a range beyond its
positions: BOXDEC.H changes no byte of memory and sets CORE_OPSTAT.param. A valid one: BOXDEC.H records its range, the
only one with clear, changes no byte outside the 1,024 bytes of the histogram, and closes the emission. The first
BOXDEC.E of a run, block and list apart from the histogram, writes total, cut, kept and dropped behind it: kept is the
capacity unless the cut is 0, dropped the rest of the total, which CORE_CANDOVF counts. -/
def Obligations.BoxDecodeRun : Prop :=
  ∀ (x : Ctx) (pA : BitVec 4) (first : BitVec 20) (count : BitVec 16) (s : State) (h : Nat), s.canIssue x = true →
    s.gated x = false → (s.array x pA 16 176).2 = some h →
    let p := x.core
    let k := s.boxBlock h
    let n := count.toNat + 1
    let ok := k.valid && decide (first.toNat + n ≤ k.positions)
    let hh := coreBase p + k.hist
    (∀ clear, ok = false → Issues x (exec (.boxdecH x pA clear first count) s) fun u => SameMem s u ∧ SameCores s u p ∧
      u.bit (Reg.CORE_OPSTAT p) 0 = true ∧ (u.core p).boxBad = true) ∧
    (∀ clear, ok = true → Issues x (exec (.boxdecH x pA clear first count) s) fun u => SameMemBut s u hh 1024 ∧
      SameCores s u p ∧ (u.core p).boxOpen = false ∧
      (u.core p).boxCover = (if clear then [(first.toNat, n)] else (first.toNat, n) :: (s.core p).boxCover)) ∧
    (ok = true → (s.core p).boxOpen = false → (k.list + 32 * k.cap ≤ k.hist ∨ k.hist + 1040 ≤ k.list) →
      Issues x (exec (.boxdecE x pA first count) s) fun u =>
        let total := s.histGe hh 0
        let cut := s.histCut hh k.cap
        let kept := if cut = 0 then total else k.cap
        u.le (hh + 1024) 4 = total % 2 ^ 32 ∧ u.le (hh + 1028) 4 = cut ∧ u.le (hh + 1032) 4 = kept % 2 ^ 32 ∧
        u.le (hh + 1036) 4 = (total - kept) % 2 ^ 32 ∧ (u.core p).boxOpen = true ∧
        u.regN (Reg.CORE_CANDOVF p) = min (s.regN (Reg.CORE_CANDOVF p) + (total - kept)) 0xFFFFFFFF ∧ SameCores s u p)

/-- With the parameter entry in the own scratchpad and valid, outside a gated region. NMS.SORT permutes the candidate list
alone: the list afterwards is a permutation of the list before, nothing outside it changes, and the keep marks are the
valid bits in the new order. NMS.SUP over rows i0 to i1 inside the list applies the rows in order to the keep marks
and changes no memory; an empty or excessive range sets CORE_OPSTAT.param and changes no mark. NMS.OUT writes the
first S kept entries and zero entries after them, counts the run, and counts the kept entries beyond S. -/
def Obligations.SuppressionRun : Prop :=
  ∀ (x : Ctx) (pA : BitVec 4) (s : State) (h : Nat), s.canIssue x = true → s.gated x = false → (s.array x pA 16 16).2 = some h →
    let p := x.core
    let e := s.nmsEntry h
    let lh := coreBase p + e.inp
    e.valid = true →
    (Issues x (exec (.nmsSort x pA) s) fun u =>
      (u.entries lh e.nc).Perm (s.entries lh e.nc) ∧ SameMemBut s u lh (32 * e.nc) ∧ SameCores s u p ∧
      Tbl.get (fun _ => []) (u.core p).keep e.inp = (u.entries lh e.nc).map entryValid) ∧
    (∀ i0 i1 : BitVec 10, i0.toNat ≤ i1.toNat → i1.toNat ≤ e.nc - 2 → Issues x (exec (.nmsSup x pA i0 i1) s) fun u =>
      SameMem s u ∧ SameCores s u p ∧ Tbl.get (fun _ => []) (u.core p).keep e.inp =
        (List.range (i1.toNat - i0.toNat + 1)).foldl (fun m i => (supRow (s.ftz x) e (s.entries lh e.nc) m (i0.toNat + i)).1)
          (s.keepOf p e)) ∧
    (∀ i0 i1 : BitVec 10, (i1.toNat < i0.toNat ∨ e.nc - 2 < i1.toNat) →
      exec (.nmsSup x pA i0 i1) s = .next ((s.sticky (Reg.CORE_OPSTAT p) 0).advance x)) ∧
    (Issues x (exec (.nmsOut x pA) s) fun u =>
      let kept := (((s.entries lh e.nc).zip (s.keepOf p e)).filter Prod.snd).map Prod.fst
      u.entries (coreBase p + e.out) e.sN = kept.take e.sN ++ List.replicate (e.sN - kept.length) (List.replicate 32 0) ∧
      SameMemBut s u (coreBase p + e.out) (32 * e.sN) ∧ SameCores s u p ∧
      u.regN (Reg.CORE_NMSRUNS p) = min (s.regN (Reg.CORE_NMSRUNS p) + 1) 0xFFFFFFFF ∧
      u.regN (Reg.CORE_SURVOVF p) = min (s.regN (Reg.CORE_SURVOVF p) + (kept.length - e.sN)) 0xFFFFFFFF)

/-- With the block in the own scratchpad, outside a gated region. An invalid block, or slots beyond its capacity: only
CORE_OPSTAT.param is set. A valid block: each of the slots that no survivor is selected for gets the list word 0xFFFF;
for one slot with a selected survivor, frame and crop in DRAM, the crop's bytes hold the resampled NV12 image and the
list word its slot number, and no other byte changes. -/
def Obligations.CropSlots : Prop :=
  ∀ (x : Ctx) (pA : BitVec 4) (first count : BitVec 6) (s : State) (h : Nat), s.canIssue x = true → s.gated x = false →
    (s.array x pA 16 64).2 = some h →
    let p := x.core
    let k := s.cropBlock h
    let n := count.toNat + 1
    let sel := ((s.entries (coreBase p + k.surv) k.sN).filter k.selects).take k.ccap
    let lw := coreBase p + k.list + 2 * first.toNat
    ((k.valid = false ∨ k.ccap < first.toNat + n) →
      exec (.crop x pA first count) s = .next ((s.sticky (Reg.CORE_OPSTAT p) 0).advance x)) ∧
    (k.valid = true → first.toNat + n ≤ k.ccap → sel.length ≤ first.toNat →
      Issues x (exec (.crop x pA first count) s) fun u => SameMemBut s u lw (2 * n) ∧ SameCores s u p ∧
        ∀ i, i < n → u.le (lw + 2 * i) 2 = 0xFFFF) ∧
    ∀ e, k.valid = true → first.toNat + n ≤ k.ccap → n = 1 → sel[first.toNat]? = some e →
      k.src + k.frameBytes ≤ s.dramBytes → s.dramBytes ≤ 0x1000000000 →
      k.dst + (first.toNat + 1) * k.size ≤ s.dramBytes →
      Issues x (exec (.crop x pA first count) s) fun u =>
        let dh := k.dst + first.toNat * k.size
        (∀ j, j < k.size → u.byte (dh + j) = (k.bytes (entryBox e) (fun o => s.byte (k.src + o))).getD j 0 % 256) ∧
        u.le lw 2 = first.toNat ∧ SameCores s u p ∧
        ∀ a, (a < dh ∨ dh + k.size ≤ a) → (a < lw ∨ lw + 2 ≤ a) → u.byte a = s.byte a

/-- In a woven context with the parameter entry or list in the own scratchpad, a carry region open or not: EMIT.DET
appends one entry for every survivor slot of its list, a DETECTION for a valid survivor and 32 zero bytes for an empty
slot; EMIT.REC appends its n + 1 entries, 32 zero bytes for an entry without the valid bit or of a type it may not
place. Both keep the entries already queued, hold at most 1,024, and change no memory. In a loose context both are
ILLEGAL. -/
def Obligations.EmissionQueues : Prop :=
  (∀ (p : Fin 72) (s : State), s.canIssue (.woven p) = true →
    let x : Ctx := .woven p
    (∀ (f : EmitDet) (h : Nat), (s.array x f.pA 16 16).2 = some h →
      let e := s.nmsEntry h
      e.out + 32 * e.sN ≤ 0x200000 → (s.queue p.val f.q.toNat).length + e.sN ≤ 1024 →
      Issues x (exec (.emitDet x f) s) fun u => SameMem s u ∧ SameCores s u p.val ∧
        (u.queue p.val f.q.toNat).map QEntry.bytes = (s.queue p.val f.q.toNat).map QEntry.bytes ++
          (s.entries (coreBase p.val + e.out) e.sN).map (detBytes (s.ftz x) f.network.toNat f.output.toNat) ∧
        ∀ q, q ≠ f.q.toNat → u.queue p.val q = s.queue p.val q) ∧
    ∀ (lA : BitVec 4) (q : BitVec 3) (n : BitVec 10) (h : Nat), (s.array x lA 1 (32 * (n.toNat + 1))).2 = some h →
      (s.queue p.val q.toNat).length + (n.toNat + 1) ≤ 1024 →
      Issues x (exec (.emitRec x lA q n) s) fun u => SameMem s u ∧ SameCores s u p.val ∧
        (u.queue p.val q.toNat).map QEntry.bytes = (s.queue p.val q.toNat).map QEntry.bytes ++
          (List.range (n.toNat + 1)).map (fun i =>
            let b := s.bytes (h + 32 * i) 32
            if nbit (sub b 26 1) 0 && emitType (sub b 24 2) then b else List.replicate 32 0)) ∧
  ∀ (p : Fin 72) (k : Fin 2) (s : State), s.canIssue (.loose p k) = true →
    (∀ f, exec (.emitDet (.loose p k) f) s = .next (s.weftFault (.loose p k) 0x02 (0x14 + 0x1000) 0)) ∧
    ∀ a q n, exec (.emitRec (.loose p k) a q n) s = .next (s.weftFault (.loose p k) 0x02 (0x14 + 64 + 0x1000) 0)

/-- Of a core the part has. CORE_PARK of a RUNNING or WAITING core sets park_pending and nothing else; otherwise it is
ignored with ctrl_rej. PARK_COMPLETE with park_pending: PARKED, park_pending 0. CORE_RESUME of a PARKED core without a
role, or with one in a RUNNING weave, not in initialisation: RUNNING; else ctrl_rej. CORE_UNHALT of a HALTED core
without a role, reason of class program or request: PARKED with the latch cleared. CORE_SPARE of a PARKED core without
a role, its cluster without a spare: initialisation begins. SPARE_INIT_COMPLETE of such a core: scratchpad,
accumulators and program memory read 0, the core is SPARE and its cluster names it. A PARK_COMPLETE or
SPARE_INIT_COMPLETE without its bit changes nothing. -/
def Obligations.CoreParkResume : Prop :=
  ∀ (p : Fin 72) (s : State), p.val < 9 * s.clusters →
    let st := Reg.CORE_STATUS p.val
    let only := fun (t : State) => OnlyRegs s t (fun a => a = st)
    ((s.coreState p.val = 1 ∨ s.coreState p.val = 2) → s.bit st 3 = false →
      Gives (exec (.corePark p) s) fun t => t.bit st 3 = true ∧ t.coreState p.val = s.coreState p.val ∧ only t) ∧
    ((s.coreState p.val ≠ 1 ∧ s.coreState p.val ≠ 2) ∨ s.bit st 3 = true →
      Gives (exec (.corePark p) s) fun t => t.bit st 10 = true ∧ t.coreState p.val = s.coreState p.val ∧ only t) ∧
    (s.bit st 3 = true → Gives (exec (.parkComplete p) s) fun t => t.coreState p.val = 0 ∧ t.bit st 3 = false ∧ SameMem s t ∧
      SameCores s t p.val ∧ (t.core p.val).woven = (s.core p.val).woven ∧ ∀ a, a ≠ st → t.reg a = s.reg a) ∧
    (s.bit st 3 = false → exec (.parkComplete p) s = .next s) ∧
    (s.coreState p.val = 0 → (s.roleOf p.val = none ∨ s.weaveState = 4) → s.bit st 7 = false →
      Gives (exec (.coreResume p) s) fun t => t.coreState p.val = 1 ∧ SameMem s t ∧ SameCores s t p.val ∧
        (t.core p.val).woven = (s.core p.val).woven ∧ ∀ a, a ≠ st → t.reg a = s.reg a) ∧
    (s.coreState p.val ≠ 0 → exec (.coreResume p) s = .next (s.sticky st 10)) ∧
    (s.coreState p.val = 3 → s.roleOf p.val = none → (s.fld (Reg.CORE_HALT_REASON p.val) 8 2 = 1 ∨ s.fld (Reg.CORE_HALT_REASON p.val) 8 2 = 3) →
      s.bit st 7 = false → Gives (exec (.coreUnhalt p) s) fun t => t.coreState p.val = 0 ∧
        t.regN (Reg.CORE_HALT_REASON p.val) = 0 ∧ SameMem s t ∧ SameCores s t p.val) ∧
    (s.coreState p.val = 0 → s.roleOf p.val = none → s.spareSlot (p.val / 9) = none → s.bit st 7 = false →
      Gives (exec (.coreSpare p) s) fun t => t.bit st 7 = true ∧ t.coreState p.val = 0 ∧ only t) ∧
    (s.bit st 7 = true → s.roleOf p.val = none → Gives (exec (.spareInitComplete p) s) fun t => t.coreState p.val = 4 ∧
      t.bit (Reg.CLU_STATUS (p.val / 9)) 0 = true ∧ t.fld (Reg.CLU_STATUS (p.val / 9)) 1 4 = p.val % 9 ∧ SameCores s t p.val ∧
      (∀ a, a < 0x1000000 → t.byte (coreBase p.val + a) = 0) ∧
      ∀ a, (a < coreBase p.val ∨ coreBase p.val + 0x1000000 ≤ a) → t.byte a = s.byte a) ∧
    (s.bit st 7 = false → exec (.spareInitComplete p) s = .next s)

/-- On a core without a role that is not HALTED: CORE_HALT gives reason EXT_HALT (0x0E) of class request with the master
in info, PARK_TIMEOUT with a park pending gives PARK_ABORT (0x09) of class hardware, and UNCORR_DATA_HALT gives
UNCORR_DATA (0x0C) of class hardware with the address and, in its poisoned block, cause UNCORRECTABLE. The core is
HALTED with park_pending 0, the latch holds the pick number and no other core changes; only the tiles of aborted
passes change in memory, and none when no engine stalled. A core that is HALTED keeps its latch and counts the later
halt, up to 15. -/
def Obligations.CoreHalts : Prop :=
  ∀ (p : Fin 72) (s : State), p.val < 9 * s.clusters →
    let rs := Reg.CORE_HALT_REASON p.val
    let latched := fun (code cls info : Nat) (t : State) => t.coreState p.val = 3 ∧ t.bit (Reg.CORE_STATUS p.val) 3 = false ∧
      t.fld rs 0 8 = code ∧ t.fld rs 8 2 = cls ∧ t.fld rs 16 16 = info ∧ t.reg64 (Reg.CORE_HALT_PICK_LO p.val) = s.pickNow ∧
      SameCores s t p.val
    (s.coreState p.val ≠ 3 → s.roleOf p.val = none → s.failover (p.val / 9) = none →
      (∀ m : BitVec 8, Gives (exec (.coreHalt p m 0) s) fun t => latched 0x0E 3 m.toNat t ∧ SameMem s t) ∧
      (∀ (m : BitVec 8) (e : Fin 4), Gives (exec (.coreHalt p m (1 <<< e.val)) s) fun t => latched 0x0E 3 m.toNat t ∧
        SameMemBut s t (accAddr p.val e.val (s.fld (Reg.CORE_MESTAT p.val e.val) 8 4) 0 0) 4096) ∧
      (s.bit (Reg.CORE_STATUS p.val) 3 = true → Gives (exec (.parkTimeout p 0x10) s) fun t => latched 0x09 2 0x10 t ∧ SameMem s t) ∧
      (∀ a : BitVec 25, a.toNat < 0x200000 → Gives (exec (.uncorrDataHalt p a) s) fun t => latched 0x0C 2 0 t ∧ SameMem s t ∧
        t.reg64 (Reg.CORE_HALT_ADDR_LO p.val) = coreBase p.val + a.toNat ∧
        (t.blockTag p.val (a.toNat / 512)).cause = .uncorrectable)) ∧
    (s.coreState p.val = 3 → ∀ m st, exec (.coreHalt p m st) s =
      .next (s.setFld rs 12 4 (min (s.fld rs 12 4 + 1) 15)))

/-- GANG_MODE_CHANGE with a change pending puts the requested mode in force, clears the pending bit and leaves no engine a
valid weight tile; without one it changes nothing. STAT_MODE_CHANGE with a change pending puts stat_mode in force and
clears all four statistics slots. CORE_GANG_WRITE, CORE_NUMCFG_WRITE and CORE_MAXABS_CLR on a PARKED, HALTED or SPARE
core take effect at once (mode in force; ftz and stat_mode in force; the banks named read 0); on a RUNNING or WAITING
core they only set their rej bit. -/
def Obligations.CoreModeChanges : Prop :=
  ∀ (p : Fin 72) (s : State), p.val < 9 * s.clusters →
    let g := Reg.CORE_GANG p.val
    let n := Reg.CORE_NUMCFG p.val
    (s.bit g 4 = true → Gives (exec (.gangModeChange p) s) fun t => t.fld g 2 2 = s.fld g 0 2 ∧ t.bit g 4 = false ∧
      (∀ e, t.weight p.val e = none) ∧ SameMem s t ∧ SameCores s t p.val ∧ ∀ a, a ≠ g → t.reg a = s.reg a) ∧
    (s.bit g 4 = false → exec (.gangModeChange p) s = .next s) ∧
    (s.bit n 9 = true → Gives (exec (.statModeChange p) s) fun t => (t.core p.val).statMode = s.fld n 1 2 ∧ t.bit n 9 = false ∧
      (∀ k w, k < 4 → w < 64 → t.regN (statWord p.val k w) = 0) ∧ SameMem s t ∧ SameCores s t p.val) ∧
    (s.bit n 9 = false → exec (.statModeChange p) s = .next s) ∧
    (s.coreStopped p.val = true →
      (∀ v : Word, v.getLsbD 8 = false → Gives (exec (.coreGangWrite p v) s) fun t => t.fld g 2 2 = v.toNat % 4 ∧
        t.fld g 0 2 = v.toNat % 4 ∧ (∀ e, t.weight p.val e = none) ∧ SameMem s t ∧ SameCores s t p.val) ∧
      (∀ v : Word, v.toNat / 2 % 4 ≠ 3 → Gives (exec (.coreNumcfgWrite p v) s) fun t => t.bit n 0 = v.getLsbD 0 ∧
        t.fld n 1 2 = v.toNat / 2 % 4 ∧ (t.core p.val).statMode = v.toNat / 2 % 4 ∧ SameMem s t ∧ SameCores s t p.val) ∧
      (Gives (exec (.coreMaxabsClr p 3) s) fun t => t.regN (Reg.CORE_MAXABS_T p.val) = 0 ∧
        (∀ i, i < 128 → t.regN (Reg.CORE_MAXABS_C p.val i) = 0) ∧ t.cores = s.cores ∧ SameMem s t)) ∧
    (s.coreStopped p.val = false →
      (∀ v : Word, Gives (exec (.coreGangWrite p v) s) fun t => t.bit g 8 = true ∧ t.fld g 0 5 = s.fld g 0 5 ∧
        OnlyRegs s t (fun a => a = g)) ∧
      (∀ v : Word, Gives (exec (.coreNumcfgWrite p v) s) fun t => t.bit n 8 = true ∧ t.fld n 0 3 = s.fld n 0 3 ∧
        OnlyRegs s t (fun a => a = n)) ∧
      (∀ v : Word, exec (.coreMaxabsClr p v) s = .next (s.sticky (Reg.CORE_MAXABS_STAT p.val) 12)))

/-- CORE_SEINV posts its index, or all with bit 16, to its core; SYS_SDT_INV posts it to every core of the part and sets
busy; nothing else changes. SYS_SDT_BASE_WRITE of the low word in ARMED, RUNNING or HEDGE, or with an address bit
below 18 set, only sets SYS_MEMSTAT.base_rej; otherwise the register holds the value. SC_WINDOW_WRITE of a way count
above 16, or in a weave state other than IDLE, LOADED, STOPPED and FAILED, only sets the same sticky bit; a permitted
one puts the count in force and every byte of the window beyond the ways kept reads 0. SC_WINDOW_FLUSH_DONE ends the
flush. READ_CACHE_INVALIDATE leaves its cluster no line and touches no other state. -/
def Obligations.InvalidationsAndWindow : Prop :=
  ∀ s : State,
    (∀ (p : Fin 72) (v : Word), p.val < 9 * s.clusters → Gives (exec (.coreSeinv p v) s) fun t =>
      (if v.getLsbD 16 then none else some (v.toNat % 4096)) ∈ (t.core p.val).inval ∧ SameCores s t p.val ∧
      t = { s with cores := t.cores }) ∧
    (∀ v : Word, Gives (exec (.sysSdtInv v) s) fun t => t.bit Reg.SYS_SDT_INVSTAT 0 = true ∧ SameMem s t ∧
      ∀ p, p < 9 * s.clusters → (if v.getLsbD 16 then none else some (v.toNat % 4096)) ∈ (t.core p).inval) ∧
    (∀ (v : Word) (m : BitVec 8), (s.weaveState = 3 ∨ s.weaveState = 4 ∨ s.weaveState = 6 ∨ v.toNat % 2 ^ 18 ≠ 0) →
      exec (.sysSdtBaseWrite false v m) s = .next (s.sticky Reg.SYS_MEMSTAT 0)) ∧
    (∀ (v : Word) (m : BitVec 8), s.weaveState = 0 → v.toNat % 2 ^ 18 = 0 → s.locked Reg.SYS_SDT_BASE_LO = false →
      Gives (exec (.sysSdtBaseWrite false v m) s) fun t => t.reg Reg.SYS_SDT_BASE_LO = v ∧ SameMem s t ∧ t.cores = s.cores) ∧
    (∀ (v : Word) (m : BitVec 8), s.locked Reg.SYS_SC_WINDOW = false →
      (16 < v.toNat % 32 ∨ (s.weaveState ≠ 0 ∧ s.weaveState ≠ 2 ∧ s.weaveState ≠ 5 ∧ s.weaveState ≠ 7)) →
      exec (.scWindowWrite v m) s = .next (s.sticky Reg.SYS_MEMSTAT 0)) ∧
    (∀ (v : Word) (m : BitVec 8), s.locked Reg.SYS_SC_WINDOW = false → s.weaveState = 0 → 8 ≤ v.toNat % 32 → v.toNat % 32 ≤ 16 →
      Gives (exec (.scWindowWrite v m) s) fun t => t.fld Reg.SYS_SC_WINDOW 0 5 = v.toNat % 32 ∧
        let k := 0x1300000000 + min (s.fld Reg.SYS_SC_WINDOW 0 5) (v.toNat % 32) * 0x200000
        (∀ a, k ≤ a → a < 0x1302000000 → t.byte a = 0) ∧ ∀ a, (a < k ∨ 0x1302000000 ≤ a) → t.byte a = s.byte a) ∧
    (Gives (exec .scWindowFlushDone s) fun t => t.bit Reg.SYS_MEMSTAT 1 = false ∧ OnlyRegs s t (fun a => a = Reg.SYS_MEMSTAT)) ∧
    ∀ g : Fin 8, g.val < s.clusters → Gives (exec (.readCacheInvalidate g) s) fun t => t = { s with ccache := t.ccache } ∧
      ∀ n, n < 2 ^ 40 → Tbl.find (g.val * 2 ^ 40 + n) t.ccache = none

/-- ROLE_TABLE_WRITE in IDLE that moves a role between two stopped slots, the new one free: the entry names the new slot,
its epoch rises by one modulo 256 and CLU_ROLECHG counts; while the weave runs it only sets CLU_STATUS.rej.
PARAMETER_SHADOW_WRITE changes the shadow set of the role of the core alone, never an active set. CORE_REGISTER_WRITE
of a PARKED or HALTED core changes its scalar register; otherwise it only sets reg_rej. PROGRAM_WRITE of a PARKED or
HALTED core stores its word little-endian in program memory; in any other state it only sets prog_busy and counts. -/
def Obligations.OutsideCoreWrites : Prop :=
  ∀ s : State,
    (∀ (l : Fin 64) (v : Word) (a b : Nat), l.val < 8 * s.clusters → s.weaveState = 0 → s.physOf l.val = some a →
      v.toNat % 16 ≤ 8 → b = physCore (l.val / 8) (v.toNat % 16) → a ≠ b → s.roleOf b = none → s.coreStopped a = true →
      s.coreStopped b = true → Gives (exec (.roleTableWrite l v) s) fun t =>
        t.physOf l.val = some b ∧ t.roleEpoch l.val = (s.roleEpoch l.val + 1) % 256 ∧ SameMem s t ∧ t.cores = s.cores ∧
        t.regN (Reg.CLU_ROLECHG (l.val / 8)) = min (s.regN (Reg.CLU_ROLECHG (l.val / 8)) + 1) 0xFFFFFFFF) ∧
    (∀ (l : Fin 64) (v : Word), l.val < 8 * s.clusters → (s.weaveState = 3 ∨ s.weaveState = 4) →
      exec (.roleTableWrite l v) s = .next (s.sticky (Reg.CLU_STATUS (l.val / 8)) 14)) ∧
    ∀ (p : Fin 72) (v : Word), p.val < 9 * s.clusters →
      (∀ n : Fin 64, Gives (exec (.parameterShadowWrite p n v) s) fun t => t = { s with pshadow := t.pshadow } ∧
        ∀ k, Tbl.get (fun _ => 0) t.pshadow k = if k = 64 * s.paramOwner p.val + n.val then v else Tbl.get (fun _ => 0) s.pshadow k) ∧
      (∀ n : Fin 64, n.val < 32 → (s.coreState p.val = 0 ∨ s.coreState p.val = 3) →
        Gives (exec (.coreRegisterWrite p n v) s) fun t => t = { s with cores := t.cores } ∧ SameCores s t p.val ∧
          (t.core p.val).woven.getS n.val = v ∧ ∀ k, k ≠ n.val → (t.core p.val).woven.getS k = (s.core p.val).woven.getS k) ∧
      (∀ n : Fin 64, s.coreState p.val ≠ 0 → s.coreState p.val ≠ 3 →
        exec (.coreRegisterWrite p n v) s = .next (s.sticky (Reg.CORE_STATUS p.val) 9)) ∧
      (∀ o : BitVec 18, o.toNat % 4 = 0 → (s.coreState p.val = 0 ∨ s.coreState p.val = 3) →
        Gives (exec (.programWrite p o v) s) fun t => t = { s with mem := t.mem } ∧
          t.le (coreBase p.val + 0xC00000 + o.toNat) 4 = v.toNat ∧ SameMemBut s t (coreBase p.val + 0xC00000 + o.toNat) 4) ∧
      (∀ o : BitVec 18, o.toNat % 4 = 0 → s.coreState p.val ≠ 0 → s.coreState p.val ≠ 3 →
        exec (.programWrite p o v) s = .next ((s.sticky (Reg.CORE_STATUS p.val) 8).satAdd (Reg.CORE_PROGREJ p.val) 1))

/-- SYNC_EXPIRY of a barrier at which one core waits, not expired before: the cluster counts it once, the core shows
sync_to, is RUNNING and goes on behind its SYNC. COMMAND_INPUT_PRESENT of a waiting SE.XFER, MPASS, POOL, DWCONV or
CARRY.BEGIN runs it again with its core RUNNING and nothing held, or leaves all as it was while input is absent;
INPUT_WAIT_EXPIRY counts WV_INWAIT and runs it as after the wait. PUSH_ARRIVAL of a push for the current role and
epoch whose slot the role declares and that is free: the slot is occupied and holds the bytes, nothing outside
changes; on an occupied slot, only CLU_LBDROP counts; for another epoch, CLU_STALE counts and a notice returns.
STALE_NOTICE counts in its sender and sets the sticky bit. -/
def Obligations.WaitsAndPushes : Prop :=
  ∀ s : State,
    (∀ (g b : Fin 8) (v : Barrier) (p : Fin 72), s.barrier g.val b.val = some v → v.expired = false →
      s.waitersAt g.val b.val = [p.val] → Issues (.woven p) (exec (.syncExpiry g b) s) fun u =>
        u.regN (Reg.CLU_SYNCTO g.val) = min (s.regN (Reg.CLU_SYNCTO g.val) + 1) 0xFFFFFFFF ∧ u.coreState p.val = 1 ∧
        u.bit (Reg.CORE_STATUS p.val) 11 = true ∧ (u.core p.val).syncAt = none ∧
        (u.core p.val).woven = (s.core p.val).woven ∧ SameMem s u ∧ SameCores s u p.val) ∧
    (∀ (x : Ctx) (i : Instr) (run : Bool → State → Eng), s.heldOf x = some i → waitingRun i = some run →
      (∀ t, run false (s.unhold x) = .done t → exec (.commandInputPresent x) s = .next (t.advance x)) ∧
      (run false (s.unhold x) = .wait → exec (.commandInputPresent x) s = .next s) ∧
      (let e := (s.satAdd Reg.WV_INWAIT 1).sticky Reg.WV_IRQ_STATUS 8
       ∀ t, run true (e.unhold x) = .done t → exec (.inputWaitExpiry x) s = .next (t.advance x)) ∧
      ∀ p, x = .woven p → (s.unhold x).coreState p.val = 1 ∧ ((s.unhold x).core p.val).held = none) ∧
    (∀ (n : Nat) (ps : Push) (q : Nat) (buf : LandBuf), s.pushes[n]? = some ps → ps.dest = some q →
      s.roleOf q = some ps.target → s.landBuf q ps = some buf →
      buf.offset + buf.slots * buf.slotBytes ≤ 0x200000 →
      let key := 16 * ps.buffer + ps.slot
      let home := coreBase q + buf.offset + ps.slot * buf.slotBytes
      (s.roleEpoch ps.target = ps.epoch → s.isLanded q key = false → Gives (exec (.pushArrival n) s) fun t =>
        t.isLanded q key = true ∧ t.pushes = s.pushes.eraseIdx n ∧ SameCores s t q ∧
        (∀ j, j < ps.bytes.length → j < buf.slotBytes → t.byte (home + j) = ps.bytes.getD j 0 % 256) ∧
        SameMemBut s t home buf.slotBytes) ∧
      (s.roleEpoch ps.target = ps.epoch → s.isLanded q key = true → exec (.pushArrival n) s =
        .next ({ s with pushes := s.pushes.eraseIdx n }.satAdd (Reg.CLU_LBDROP (q / 9)) 1)) ∧
      (s.roleEpoch ps.target ≠ ps.epoch → Gives (exec (.pushArrival n) s) fun t => SameMem s t ∧
        t.pushes = s.pushes.eraseIdx n ∧ t.notices = s.notices ++ [ps.sender] ∧
        t.regN (Reg.CLU_STALE (q / 9)) = min (s.regN (Reg.CLU_STALE (q / 9)) + 1) 0xFFFFFFFF)) ∧
    ∀ (n p : Nat), s.notices[n]? = some p → exec (.staleNotice n) s =
      .next (({ s with notices := s.notices.eraseIdx n }.satAdd (Reg.CORE_SESTALE p) 1).sticky (Reg.CORE_SESTAT p) 2)

/-- While WV_CTRL.lock is set, LOAD, STOP, REPLACE and ABANDON are writes to a locked field: no effect but that
RAS_LOCKVIOL counts (saturating), the address and the master are captured if no capture is held, and the error log
takes an event. START and HEDGE take effect whatever the lock holds. Unlocked, LOAD in IDLE, LOADED, STOPPED or FAILED
begins a load from WV_IMG and enters LOADING without an image; in RUNNING with no standby load and no REPLACE pending
it discards the standby image and begins a standby load. START in LOADED or STOPPED, for pick 0 or one at least 16,000
ns ahead, enters ARMED with its start pick; STOP in ARMED returns to LOADED, in RUNNING it becomes the pending
command; REPLACE in RUNNING with a standby image becomes the pending command; ABANDON in RUNNING drops the standby
image and what is pending; HEDGE in LOADED to STOPPED enters HEDGE with WV_STATUS bits 7 to 3 clear. In any other
state each command only sets WV_IRQ_STATUS.cmd_rejected. LOCK sets the lock bit. -/
def Obligations.WeaveCommands : Prop :=
  ∀ (s : State) (m : BitVec 8),
    let st := Reg.WV_STATUS
    let w := s.weaveState
    let at_ := s.reg64 Reg.WV_START_LO
    let rejected : Host.Outcome State Fault Refusal := .next (s.sticky Reg.WV_IRQ_STATUS 10)
    let barred := fun (t : State) => SameMem s t ∧ t.cores = s.cores ∧ t.weave = s.weave ∧
      t.regN Reg.RAS_LOCKVIOL = min (s.regN Reg.RAS_LOCKVIOL + 1) 0xFFFFFFFF ∧
      (s.bit Reg.RAS_LOCKCAP_HI 31 = false → t.reg64 Reg.RAS_LOCKCAP_LO % 2 ^ 48 = Reg.WV_CTRL + m.toNat * 2 ^ 40) ∧
      ∀ a, ¬ LogReg a → a ≠ Reg.RAS_LOCKVIOL → a ≠ Reg.RAS_LOCKCAP_LO → a ≠ Reg.RAS_LOCKCAP_HI → t.reg a = s.reg a
    (s.bit Reg.WV_CTRL 8 = true → Gives (exec (.weaveLoad m) s) barred ∧ Gives (exec (.weaveStop m) s) barred ∧
      Gives (exec (.weaveReplace m) s) barred ∧ Gives (exec (.weaveAbandon m) s) barred) ∧
    ((w = 2 ∨ w = 5) ∧ (at_ = 0 ∨ s.time + 16000 ≤ 1000 * at_) → Gives (exec .weaveStart s) fun t =>
      t.weaveState = 3 ∧ t.weave.startPick = (if at_ = 0 then (s.time + 16999) / 1000 else at_) ∧ SameMem s t ∧ t.cores = s.cores) ∧
    (¬ ((w = 2 ∨ w = 5) ∧ (at_ = 0 ∨ s.time + 16000 ≤ 1000 * at_)) → exec .weaveStart s = rejected) ∧
    (w = 2 ∨ w = 3 ∨ w = 4 ∨ w = 5 → Gives (exec .weaveHedge s) fun t => t.weaveState = 6 ∧ t.fld st 3 5 = 0 ∧
      t.weave.standby = none ∧ t.bit Reg.WV_IRQ_STATUS 9 = true) ∧
    (w = 0 ∨ w = 1 ∨ w = 6 ∨ w = 7 → exec .weaveHedge s = rejected) ∧
    exec .weaveLock s = .next (s.sticky Reg.WV_CTRL 8) ∧
    (s.bit Reg.WV_CTRL 8 = false →
      (w = 0 ∨ w = 2 ∨ w = 5 ∨ w = 7 → Gives (exec (.weaveLoad m) s) fun t => t.weaveState = 1 ∧ t.weave.active = none ∧
        t.weave.loadAddr = s.reg64 Reg.WV_IMG_LO % 2 ^ 40 ∧ SameMem s t ∧ t.cores = s.cores) ∧
      (w = 4 → s.bit st 7 = false → s.bit st 4 = false → Gives (exec (.weaveLoad m) s) fun t => t.weaveState = 4 ∧
        t.bit st 7 = true ∧ t.bit st 3 = false ∧ t.weave.standby = none ∧ t.weave.active = s.weave.active ∧
        t.weave.loadAddr = s.reg64 Reg.WV_IMG_LO % 2 ^ 40 ∧ SameMem s t ∧ t.cores = s.cores) ∧
      (w = 1 ∨ w = 3 ∨ w = 6 ∨ (w = 4 ∧ (s.bit st 7 = true ∨ s.bit st 4 = true)) → exec (.weaveLoad m) s = rejected) ∧
      (w = 3 → Gives (exec (.weaveStop m) s) fun t => t.weaveState = 2 ∧ SameMem s t ∧ t.cores = s.cores ∧ t.weave = s.weave) ∧
      (w = 4 → exec (.weaveStop m) s = .next ((s.putBit st 4 false).putBit st 5 true)) ∧
      (w ≠ 3 ∧ w ≠ 4 → exec (.weaveStop m) s = rejected) ∧
      (w = 4 ∧ s.bit st 3 = true → exec (.weaveReplace m) s = .next ((s.putBit st 4 true).putBit st 5 false)) ∧
      (¬ (w = 4 ∧ s.bit st 3 = true) → exec (.weaveReplace m) s = rejected) ∧
      (w = 4 → Gives (exec (.weaveAbandon m) s) fun t => t.weaveState = 4 ∧ t.weave.standby = none ∧ t.bit st 3 = false ∧
        t.bit st 4 = false ∧ t.bit st 5 = false ∧ SameMem s t ∧ t.cores = s.cores) ∧
      (w ≠ 4 → exec (.weaveAbandon m) s = rejected))

/-- LOAD_COMPLETE with every requested wake done: in LOADING, an image that passes the checks is the active one,
WV_LOAD_ERR reads 0, the state is LOADED and the loaded interrupt bit is set; one that fails gives FAILED with its
code and place in WV_LOAD_ERR and the error bit; a standby load ends in the standby image and WV_STATUS.standby, or
leaves the active image alone, RUNNING all the while. WEAVE_START_PICK in ARMED at or after the start pick, the fault
set covered by variant v: RUNNING with that variant, the tick begins at the start pick and WV_TICK is WV_TICK_BASE.
HEDGE_WEAVE_START in HEDGE at its pick, no hole due and a cluster for it: the tick begins there with the next frame
tick number and the variant of the lowest-numbered cluster that is not lost. None of them does anything earlier or in
another state. -/
def Obligations.LoadAndStart : Prop :=
  ∀ s : State,
    let st := Reg.WV_STATUS
    let checked := fun r => (s.putBit st 7 false).loadImage s.weave.loadAddr false r
    (s.power.queue = [] → s.power.waking = [] → ∀ r : Option ThrReport,
      (s.weaveState = 1 → s.bit st 7 = false →
        (∀ im, checked r = .ok im → Gives (exec (.loadComplete r) s) fun t => t.weaveState = 2 ∧ t.weave.active = some im ∧
          t.regN Reg.WV_LOAD_ERR = 0 ∧ t.bit Reg.WV_IRQ_STATUS 0 = true ∧ SameMem s t ∧ t.cores = s.cores) ∧
        ∀ code place rep, checked r = .fail code place rep → Gives (exec (.loadComplete r) s) fun t => t.weaveState = 7 ∧
          t.regN Reg.WV_LOAD_ERR = (code + place % 65536 * 65536) % 2 ^ 32 ∧ t.bit Reg.WV_IRQ_STATUS 1 = true ∧
          SameMem s t ∧ t.cores = s.cores) ∧
      (s.weaveState = 4 → s.bit st 7 = true →
        (∀ im, checked r = .ok im → Gives (exec (.loadComplete r) s) fun t => t.weaveState = 4 ∧ t.weave.standby = some im ∧
          t.weave.active = s.weave.active ∧ t.bit st 3 = true ∧ t.bit st 7 = false ∧ SameMem s t) ∧
        ∀ code place rep, checked r = .fail code place rep → Gives (exec (.loadComplete r) s) fun t => t.weaveState = 4 ∧
          t.weave = s.weave ∧ t.bit st 7 = false ∧ t.bit Reg.WV_IRQ_STATUS 1 = true ∧ SameMem s t)) ∧
    (s.weaveState ≠ 1 → s.bit st 7 = false → ∀ r, exec (.loadComplete r) s = .next s) ∧
    (∀ im v, s.weave.active = some im → s.weaveState = 3 → s.weave.startPick ≤ s.pickNow → s.recheck.select im = some v →
      Gives (exec .weaveStartPick s) fun t => t.weaveState = 4 ∧ t.weave.tickPick = s.weave.startPick ∧
        t.regN Reg.WV_TICK = s.regN Reg.WV_TICK_BASE ∧ t.variantId = v.id % 65536 ∧ t.bit Reg.WV_IRQ_STATUS 2 = true) ∧
    (s.weaveState ≠ 3 ∨ s.pickNow < s.weave.startPick → exec .weaveStartPick s = .next s) ∧
    (∀ n i g v, s.weave.hedgeAt = some n → s.weaveState = 6 → n ≤ s.pickNow → s.weave.due = [] → s.weave.active = some i →
      s.hedgeVariant i = some (g, v) → Gives (exec .hedgeWeaveStart s) fun t => t.weaveState = 6 ∧ t.weave.tickPick = n ∧
        t.weave.hedgeAt = none ∧ t.regN Reg.WV_TICK = (s.regN Reg.WV_TICK + 1) % 2 ^ 32 ∧ t.variantId = v.id % 65536) ∧
    (s.weave.hedgeAt = none → exec .hedgeWeaveStart s = .next s) ∧
    ∀ n, s.weave.hedgeAt = some n → (s.weaveState ≠ 6 ∨ s.pickNow < n) → exec .hedgeWeaveStart s = .next s

/-- TICK_BOUNDARY of a RUNNING weave after the last pick of the tick, with every slot and hole retired, no stop,
replacement or changeover and no change of the fault set: the next tick begins at the following pick with tick number
plus 1, every active parameter set not held by CLU_PHOLD takes its shadow set, no core keeps a cached descriptor, and
the tick interrupt bit is set; before its pick it changes nothing. PICK_BOUNDARY moves the timebase to the next
multiple of 1,000 ns, and the pick number with it, and the steward watchdog counts. CARRY_SHADOW_COMPLETE of a copy
under way marks it with the tick. PICK_ACKNOWLEDGE counts one acknowledged pick, never one beyond the present.
TELEMETRY_LATCH_IDLE with no weave running latches WV_OVRUN and clears it, under tick 0xFFFFFFFF; with one running it
changes nothing. -/
def Obligations.TickAndPick : Prop :=
  ∀ s : State,
    let next := s.weave.tickPick + s.weave.tickLen
    let par := fun (t : Tbl Word) (k : Nat) => Tbl.get (fun _ => 0) t k
    (∀ im v, s.weaveState = 4 → s.weave.stopping = false → s.weave.hedgeAt = none → s.weave.active = some im →
      s.variant = some v → s.fld Reg.WV_STATUS 4 3 = 0 → s.weave.selected = s.regN Reg.WV_FAULTSET → s.weave.due = [] →
      (v.slots s.weave.tickLen).length ≤ s.weave.slot → next ≤ s.pickNow → Gives (exec .tickBoundary s) fun t =>
        t.weave.tickPick = next ∧ t.weave.slot = 0 ∧ t.regN Reg.WV_TICK = (s.regN Reg.WV_TICK + 1) % 2 ^ 32 ∧
        t.weaveState = 4 ∧ t.bit Reg.WV_IRQ_STATUS 3 = true ∧ t.pshadow = s.pshadow ∧
        (∀ l i, l < 8 * s.clusters → i < 64 → par t.pactive (64 * l + i) =
          if s.bit (Reg.CLU_PHOLD (l / 8)) (l % 8) then par s.pactive (64 * l + i) else par s.pshadow (64 * l + i)) ∧
        ∀ p, p < 9 * s.clusters → (t.core p).dcache = []) ∧
    (s.pickNow < next → exec .tickBoundary s = .next s) ∧
    (Gives (exec .pickBoundary s) fun t => t.time = (s.time / 1000 + 1) * 1000 % 2 ^ 64 ∧ t.pickNow = t.time / 1000 ∧
      t.rst.swCount = s.rst.swCount + 1) ∧
    (∀ l : Fin 64, (l.val ∈ s.weave.shadowBusy → Gives (exec (.carryShadowComplete l) s) fun t =>
        t = { s with weave := t.weave } ∧ l.val ∉ t.weave.shadowBusy ∧
        Tbl.get (fun _ => none) t.weave.shadowMark l.val = some s.tick) ∧
      (l.val ∉ s.weave.shadowBusy → exec (.carryShadowComplete l) s = .next s)) ∧
    (∀ p : Fin 72, p.val < 9 * s.clusters →
      ((s.core p.val).acked ≤ s.pickNow → Gives (exec (.pickAcknowledge p) s) fun t => t = { s with cores := t.cores } ∧
        SameCores s t p.val ∧ t.core p.val = { s.core p.val with acked := (s.core p.val).acked + 1 }) ∧
      (s.pickNow < (s.core p.val).acked → exec (.pickAcknowledge p) s = .next s)) ∧
    (s.weaveState ≠ 4 → s.weaveState ≠ 6 → Gives (exec .telemetryLatchIdle s) fun t => t.telemOf 0x7000 1 = 0xFFFFFFFF ∧
      t.telemOf 0x7000 5 = s.regN Reg.WV_OVRUN ∧ t.regN Reg.WV_OVRUN = 0 ∧ SameMem s t ∧ t.cores = s.cores) ∧
    (s.weaveState = 4 ∨ s.weaveState = 6 → exec .telemetryLatchIdle s = .next s)

/-- LAG_LIMIT_REACHED of a role whose core has three unacknowledged picks halts that core with PICK_MISS (0x0D); in a
woven role of a cluster with a spare and no failover, the entry names the spare, its epoch rises by one modulo 256,
the failover begins and a SPARE core is loaded in state WAITING. With fewer unacknowledged picks nothing changes.
FAILOVER_LOAD_COMPLETE of the core under load records the pick; without a usable shadow it writes nothing outside the
core's own window. An uncorrectable error in the role program ends the failover. SPARE_RESUME at the first re-entry
point at least two picks later: the core is RUNNING at the weft index of that point, owes no earlier acknowledgement,
and the failover is over; memory is unchanged. Without a failover neither changes anything. -/
def Obligations.FailoverSwitch : Prop :=
  ∀ s : State,
    (∀ (l : Fin 64) (x : BitVec 4),
      (∀ p, s.lagNow l.val = some 3 → s.physOf l.val = some p → s.failover (l.val / 8) = none →
        Gives (exec (.lagLimitReached l x) s) fun t => t.coreState p = 3 ∧ t.fld (Reg.CORE_HALT_REASON p) 0 8 = 0x0D ∧
          ∀ sp, s.wovenRole p = true → s.roleOf p = some l.val → s.spareSlot (l.val / 8) = some sp →
            t.physOf l.val = some (physCore (l.val / 8) sp) ∧ t.roleEpoch l.val = (s.roleEpoch l.val + 1) % 256 ∧
            (∃ f, t.failover (l.val / 8) = some f ∧ f.role = l.val ∧ f.loaded = none) ∧
            (s.coreState (physCore (l.val / 8) sp) = 4 → t.coreState (physCore (l.val / 8) sp) = 2)) ∧
      (s.lagNow l.val ≠ some 3 → exec (.lagLimitReached l x) s = .next s)) ∧
    ∀ g : Fin 8,
      (∀ f p sec, s.failover g.val = some f → f.role / 8 = g.val → s.physOf f.role = some p → s.roleSec f.role = some sec →
        s.coreState p = 2 →
        (f.loaded = none → s.bit (Reg.CORE_STATUS p) 7 = false →
          (∀ bad, Gives (exec (.failoverLoadComplete g false bad) s) fun t =>
            t.failover g.val = some { f with loaded := some s.pickNow } ∧ SameCores s t p ∧
            (bad = true ∨ f.shadow = false → SameMemBut s t (coreBase p) 0x1000000)) ∧
          ∀ bad, Gives (exec (.failoverLoadComplete g true bad) s) fun t => t.failover g.val = none ∧ SameMem s t) ∧
        (f.loaded ≠ none → ∀ pe se, exec (.failoverLoadComplete g pe se) s = .next s) ∧
        (∀ n e, f.loaded = some n → s.reentryFor sec n = some e → e.pick ≤ s.offset → Gives (exec (.spareResume g) s) fun t =>
          t.coreState p = 1 ∧ (t.core p).woven.pc = e.index ∧ (t.core p).acked = s.weave.tickPick + e.pick ∧
          t.failover g.val = none ∧ t.bit (Reg.CLU_STATUS g.val) 5 = false ∧ SameMem s t ∧ SameCores s t p) ∧
        (∀ n e, f.loaded = some n → s.reentryFor sec n = some e → s.offset < e.pick → exec (.spareResume g) s = .next s)) ∧
      (s.failover g.val = none → exec (.spareResume g) s = .next s ∧
        ∀ pe se, exec (.failoverLoadComplete g pe se) s = .next s)

/-- With a hole due, RETIREMENT_SLOT takes the first. If its ring has a free entry and its stream owes nothing, the 64
bytes of its HOLE record stand at the ring base plus 64 times WP modulo the size, WP, WV_RECORDS and WV_HOLES rise by
one, no core changes and nothing else of memory changes. If the ring is full, nothing is written and the stream owes
the range that begins at its stamp; an owed range is extended to its frame. With nothing due, a heartbeat slot of a
ring that is not full and owes nothing writes a FILLER record in the same way if the ring has received nothing since
the last, else it writes nothing and WV_EMPTY counts; a slot whose pick has not begun changes nothing. -/
def Obligations.RetirementSlot : Prop :=
  ∀ s : State,
    let at_ := fun r => s.ringBase r + 64 * (s.regN (Reg.RING_WP r) % s.ringSize r)
    let written := fun (t : State) (r : Nat) (bs : List Nat) => t.regN (Reg.RING_WP r) = (s.regN (Reg.RING_WP r) + 1) % 2 ^ 32 ∧
      t.reg64 Reg.WV_RECORDS_LO = (s.reg64 Reg.WV_RECORDS_LO + 1) % 2 ^ 64 ∧
      (∀ j, j < 64 → t.byte (at_ r + j) = bs.getD j 0 % 256) ∧ SameMemBut s t (at_ r) 64 ∧ t.cores = s.cores
    (∀ h rest, s.weave.due = h :: rest → (h.ring < 64 ∨ h.ring = 255) →
      (0 < s.ringFree h.ring → s.owedOf h.stream = none → Gives (exec .retirementSlot s) fun t =>
        t.weave.due = rest ∧ t.reg64 Reg.WV_HOLES_LO = (s.reg64 Reg.WV_HOLES_LO + 1) % 2 ^ 64 ∧
        written t h.ring (s.holeRecord h.stream h.frame h.item h.reason 0 h.capture noNetOut 0 0xFF 0)) ∧
      (s.ringFree h.ring = 0 → Gives (exec .retirementSlot s) fun t => t.weave.due = rest ∧ SameMem s t ∧ t.cores = s.cores ∧
        t.regN (Reg.RING_WP h.ring) = s.regN (Reg.RING_WP h.ring) ∧
        t.owedOf h.stream = some (match s.owedOf h.stream with
          | none => ⟨h.ring, h.frame, h.item, h.frame⟩
          | some o => { o with last := h.frame }))) ∧
    ∀ v e, s.weave.due = [] → s.weave.dueEnd = [] → s.weaveState = 4 → s.bit Reg.WV_STATUS 6 = false → s.weave.hedgeAt = none →
      s.variant = some v → (v.slots s.weave.tickLen)[s.weave.slot]? = some e → e.ring < 64 → e.kind = 1 →
      (e.pick ≤ s.offset → 0 < s.ringFree e.ring → s.owes e.ring = false →
        ((s.ringTick e.ring).busy = false → Gives (exec .retirementSlot s) fun t => t.weave.slot = s.weave.slot + 1 ∧
          written t e.ring (s.fillerRecord (s.ringTick e.ring).fillers (s.weave.tickPick + e.pick)) ∧
          (t.ringTick e.ring).fillers = (s.ringTick e.ring).fillers + 1) ∧
        ((s.ringTick e.ring).busy = true → Gives (exec .retirementSlot s) fun t => t.weave.slot = s.weave.slot + 1 ∧
          t.regN (Reg.RING_WP e.ring) = s.regN (Reg.RING_WP e.ring) ∧ SameMem s t ∧ t.cores = s.cores ∧
          t.reg64 Reg.WV_EMPTY_LO = (s.reg64 Reg.WV_EMPTY_LO + 1) % 2 ^ 64)) ∧
      (s.offset < e.pick → exec .retirementSlot s = .next s)

/-- On a part with four clusters, every access to the window of a physical core from 36 on, of a logical core from 32 on
or of a cluster register window from 4 on; on every part, an access within a core window at an offset outside the
scratchpad, the accumulators, program memory and the registers; and an access to a register of a size other than four
bytes or not naturally aligned: each completes with a bus error, which RAS_BUSERR counts and which is captured with
its address, master and direction when no capture is held. Nothing else changes but the error log: no byte of memory,
no core and no other register. -/
def Obligations.BusErrors : Prop :=
  ∀ (s : State) (a : BitVec 40) (n : BitVec 13) (w : Option (List (BitVec 8))) (m : BitVec 8),
    let len := match w with | some bs => bs.length | none => n.toNat
    let missing : Prop := s.clusters = 4 ∧ ((0x1000000000 + 36 * 0x2000000 ≤ a.toNat ∧ a.toNat < 0x1000000000 + 72 * 0x2000000) ∨
      (0x1100000000 + 32 * 0x2000000 ≤ a.toNat ∧ a.toNat < 0x1100000000 + 64 * 0x2000000) ∨
      (0x10C0400000 ≤ a.toNat ∧ a.toNat < 0x10C0800000))
    let unlisted : Prop := 0 < len ∧ ∃ p o, p < 9 * s.clusters ∧ a.toNat = 0x1000000000 + p * 0x2000000 + o ∧
      ((0x200000 ≤ o ∧ o < 0x800000) ∨ (0x840000 ≤ o ∧ o < 0xC00000) ∨ (0xC40000 ≤ o ∧ o < 0x1000000) ∨
        (0x1100000 ≤ o ∧ o < 0x2000000))
    let misfit : Prop := ∃ h, s.place a.toNat len = .reg h ∧ (len ≠ 4 ∨ h % 4 ≠ 0)
    s.clusters ≤ 8 → missing ∨ unlisted ∨ misfit → Gives (exec (.fabricAccess a n w m) s) fun t => t.reply = .error ∧
      SameMem s t ∧ t.cores = s.cores ∧ t.weave = s.weave ∧
      t.regN Reg.RAS_BUSERR = min (s.regN Reg.RAS_BUSERR + 1) 0xFFFFFFFF ∧
      (s.bit Reg.RAS_BUSCAP_HI 31 = false → t.reg64 Reg.RAS_BUSCAP_LO = a.toNat + m.toNat * 2 ^ 40 +
        (if w.isSome then 2 ^ 48 else 0) + 2 ^ 63) ∧
      ∀ r, ¬ LogReg r → r ≠ Reg.RAS_BUSERR → r ≠ Reg.RAS_BUSCAP_LO → r ≠ Reg.RAS_BUSCAP_HI → t.reg r = s.reg r

/-- A write to a register of the RAS block changes it by its access codes alone: an RW bit takes the value, a W1C bit
clears where 1 is written, a bit of no writable code stays; apart from what MSI-X sends, no other register and no
memory changes. A read of WV_OVRUN returns the count and clears it. A FABRIC_ACCESS read of DRAM without an
uncorrectable byte returns the bytes and changes nothing else; a write stores its bytes and no others.
OUTSIDE_CORE_ACCESS reads and writes scratchpad and accumulators in the same way; a write into a range that woven work
reads leaves free bytes there and none elsewhere (assumption 40); for another place it does nothing. -/
def Obligations.BusAccesses : Prop :=
  ∀ (s : State) (m : BitVec 8),
    (∀ (a : BitVec 40) (v : Word) r, s.rst.l3 = [] → Reg.blk 0x49 ≤ a.toNat → a.toNat < Reg.blk 0x49 + 0x100000 → a.toNat % 4 = 0 →
      Reg.rowOf a.toNat = some r → s.onceLocked a.toNat = false → Gives (exec (.registerWrite a v m) s) fun t => t.reply = .done ∧ SameMem s t ∧
        t.cores = s.cores ∧ t.weave = s.weave ∧ (∀ b, b ≠ a.toNat → b ≠ Reg.PCIE_PBA → t.reg b = s.reg b) ∧
        ∀ i, i < 32 →
          (r.rw.testBit i = true → r.w1c.testBit i = false → r.w1s.testBit i = false → t.bit a.toNat i = v.getLsbD i) ∧
          (r.w1c.testBit i = true → r.w1s.testBit i = false → v.getLsbD i = true → t.bit a.toNat i = false) ∧
          ((r.rw ||| r.lock ||| r.once ||| r.w1c ||| r.w1s).testBit i = false → t.bit a.toNat i = s.bit a.toNat i)) ∧
    (s.rst.l3 = [] → Gives (exec (.fabricAccess (BitVec.ofNat 40 Reg.WV_OVRUN) 4 none m) s) fun t =>
      t.reply = .data (leBytes 4 (s.regN Reg.WV_OVRUN)) ∧ t.regN Reg.WV_OVRUN = 0 ∧ SameMem s t ∧
      ∀ b, b ≠ Reg.WV_OVRUN → t.reg b = s.reg b) ∧
    (∀ (a : BitVec 40) (n : BitVec 13) (bs : List (BitVec 8)), a.toNat < 0x1000000000 → s.chanDead a.toNat = false →
      (a.toNat + n.toNat ≤ s.dramBytes → s.badRange a.toNat n.toNat = false →
        exec (.fabricAccess a n none m) s = .next { s with reply := .data (s.bytes a.toNat n.toNat) }) ∧
      (a.toNat + bs.length ≤ s.dramBytes → Gives (exec (.fabricAccess a n (some bs) m) s) fun t => t.reply = .done ∧
        (∀ j, j < bs.length → t.byte (a.toNat + j) = (bs.getD j 0).toNat) ∧ SameMemBut s t a.toNat bs.length ∧
        t.cores = s.cores ∧ t.regs = s.regs)) ∧
    ∀ (a : BitVec 40) (n : BitVec 13) (bs : List (BitVec 8)),
      (∀ p w h, (w = .scratch ∨ w = .acc) →
        (s.place a.toNat n.toNat = .core p w h →
          exec (.outsideCoreAccess a n none m) s = .next { s with reply := .data (s.bytes h n.toNat) }) ∧
        (s.place a.toNat bs.length = .core p w h → Gives (exec (.outsideCoreAccess a n (some bs) m) s) fun t => t.reply = .done ∧
          (s.wovenRange p w h bs.length = false → ∀ j, j < bs.length → t.byte (h + j) = (bs.getD j 0).toNat) ∧
          SameMemBut s t h bs.length ∧ t.cores = s.cores ∧ t.regs = s.regs)) ∧
      (s.place a.toNat bs.length = .err → exec (.outsideCoreAccess a n (some bs) m) s = .next s)

/-- JOB_SUBMIT by a master the client admits, of a TAIL within the ring whose entries fit, moves TAIL and counts the new
entries; otherwise only a WV_JQn_STAT bit is set. JOB_CANCEL of all marks every dispatched job and waiting entry of
the client and no other. JOB_QUEUE_DISABLE of an unlocked queue clears enable and leaves of the client's jobs only
those being saved, marked cancelled. A draining job begins its save; the end of its save stands its scratchpad bytes
in DRAM, frees its stream slots and holds it as saved; the end of a restore brings the bytes and the saved pc back,
RUNNING, or ends the job as UNCORRECTABLE where the area is. LOOSE_ALLOWANCE_WRITE stores its fields unless the range
passes the scratchpad. TRANSLATE makes the threader busy; TRANSLATE_DONE reports the failed check, or writes the image
at its destination and nowhere else. In another state each changes nothing. -/
def Obligations.JobQueues : Prop :=
  ∀ s : State,
    (∀ (n : Fin 16) (v : Word) (m : BitVec 8),
      let size := s.jqSize n.val
      let tail := s.fld (Reg.WV_JQ_TAIL n.val) 0 12
      let used := (tail + size - s.fld (Reg.WV_JQ_HEAD n.val) 0 12) % size
      let adv := (v.toNat % 4096 + size - tail) % size
      (s.jqOwner n.val m.toNat = false → exec (.jobSubmit n v m) s = .next (s.sticky (Reg.WV_JQ_STAT n.val) 4)) ∧
      (s.jqOwner n.val m.toNat = true → tail < size → s.fld (Reg.WV_JQ_HEAD n.val) 0 12 < size →
        (v.toNat % 4096 < size ∧ used + adv ≤ size - 1 → Gives (exec (.jobSubmit n v m) s) fun t =>
          t.fld (Reg.WV_JQ_TAIL n.val) 0 12 = v.toNat % 4096 ∧
          t.regN (Reg.WV_JQ_SUBMIT n.val) = (s.regN (Reg.WV_JQ_SUBMIT n.val) + adv) % 2 ^ 32 ∧
          OnlyRegs s t (fun a => a = Reg.WV_JQ_TAIL n.val ∨ a = Reg.WV_JQ_SUBMIT n.val)) ∧
        (¬ (v.toNat % 4096 < size ∧ used + adv ≤ size - 1) →
          exec (.jobSubmit n v m) s = .next (s.sticky (Reg.WV_JQ_STAT n.val) 3))) ∧
      (s.jqOwner n.val m.toNat = true → v.getLsbD 16 = true → Gives (exec (.jobCancel n v m) s) fun t =>
        t = { s with jobs := t.jobs } ∧ (∀ k, k ∈ s.jqWaiting n.val → (n.val, k) ∈ t.jobs.cancel) ∧
        t.jobs.jobs = s.jobs.jobs.map (fun j => if j.client = n.val then { j with cancelled := true } else j)) ∧
      (s.bit Reg.WV_JOBCTRL 1 = false → v.getLsbD 8 = false → Gives (exec (.jobQueueDisable n v m) s) fun t =>
        t.bit (Reg.WV_JQ_CFG n.val) 8 = false ∧ (∀ j, j ∈ t.jobs.jobs → j.client = n.val → j.phase = .saving ∧ j.cancelled = true) ∧
        ∀ j, j ∈ s.jobs.jobs → j.client ≠ n.val → j ∈ t.jobs.jobs)) ∧
    (∀ (k : Fin 64) (j : Job), s.jobNum k.val = some j →
      let area := s.saveArea j
      let at_ := fun (p : Nat) => coreBase p + j.spOff
      (j.phase = .draining → Gives (exec (.jobDrainComplete k) s) fun t => t = { s with jobs := t.jobs } ∧
        t.jobNum k.val = some { j with phase := .saving, saveOrder := s.jobs.saveSeq }) ∧
      (j.phase ≠ .draining → exec (.jobDrainComplete k) s = .next s) ∧
      (j.phase ≠ .saving → exec (.jobSaveComplete k) s = .next s) ∧ (j.phase ≠ .restoring → exec (.jobRestoreComplete k) s = .next s) ∧
      ∀ p, s.physOf j.core = some p → area + 0x266000 ≤ s.dramBytes → s.dramBytes ≤ 0x1000000000 → j.spOff + j.spSize ≤ 0x200000 →
        (j.phase = .saving → j.cancelled = false → (∀ a, s.chanDead a = false) → Gives (exec (.jobSaveComplete k) s) fun t =>
          (∃ i, t.jobNum k.val = some i ∧ i.phase = .saved ∧ i.ctx = j.ctx) ∧ SameCores s t p ∧
          (∀ i, j.slots.testBit i = true → Tbl.find i (t.core p).slots = none) ∧
          ∀ i, i < j.spSize → t.byte (area + j.spOff + i) = s.byte (at_ p + i)) ∧
        (j.phase = .restoring →
          let bad := (saveRanges p j).any (fun e => s.badRange (area + e.1) e.2.2) || s.badRange (area + 0x240000) 8192
          (bad = false → Gives (exec (.jobRestoreComplete k) s) fun t => SameCores s t p ∧ t.regs = s.regs ∧
            (∃ i, t.jobNum k.val = some i ∧ i.phase = .running ∧ i.ctx.pc = s.le (area + 0x240000 + 592) 4) ∧
            ∀ i, i < j.spSize → t.byte (at_ p + i) = s.byte (area + j.spOff + i)) ∧
          (bad = true → Gives (exec (.jobRestoreComplete k) s) fun t => t.jobNum k.val = none ∧ t.byte (j.descAddr + 48) = 9))) ∧
    (∀ (p : Fin 72) (v : Word), p.val < 9 * s.clusters →
      (v.toNat % 512 + v.toNat / 65536 % 1024 ≤ 512 → Gives (exec (.looseAllowanceWrite p false v) s) fun t =>
        t.fld (Reg.CORE_LALLOW p.val) 0 9 = v.toNat % 512 ∧ t.fld (Reg.CORE_LALLOW p.val) 16 10 = v.toNat / 65536 % 1024 ∧
        ∀ a, a ≠ Reg.CORE_LALLOW p.val → t.reg a = s.reg a) ∧
      (512 < v.toNat % 512 + v.toNat / 65536 % 1024 → exec (.looseAllowanceWrite p false v) s = .next s) ∧
      Gives (exec (.looseAllowanceWrite p true v) s) fun t => t.fld (Reg.CORE_LTILES p.val) 0 16 = v.toNat % 65536 ∧
        ∀ a, a ≠ Reg.CORE_LTILES p.val → t.reg a = s.reg a) ∧
    (∀ v : Word, (v.getLsbD 0 = true → s.bit Reg.WV_LPT_STAT 8 = false →
        exec (.translate v) s = .next (s.setFld Reg.WV_LPT_STAT 0 9 0x100)) ∧
      (v.getLsbD 0 = false ∨ s.bit Reg.WV_LPT_STAT 8 = true → exec (.translate v) s = .next s)) ∧
    let dst := s.reg64 Reg.WV_LPT_DST_LO % 2 ^ 40
    let prog := (List.range (s.fld Reg.WV_LPT_LEN 0 15)).map (fun i => s.le (s.reg64 Reg.WV_LPT_SRC_LO % 2 ^ 40 + 8 * i) 8)
    (∀ r, s.bit Reg.WV_LPT_STAT 8 = false → exec (.translateDone r) s = .next s) ∧
    (s.bit Reg.WV_LPT_STAT 8 = true → s.looseError prog = none →
      (∀ c i, Gives (exec (.translateDone (.failed c i)) s) fun t => t.bit Reg.WV_LPT_STAT 8 = false ∧
        t.fld Reg.WV_LPT_STAT 0 8 = c.toNat % 256 ∧ t.bit Reg.WV_LPT_STAT 10 = true ∧ t.regN Reg.WV_LPT_INDEX = i.toNat ∧ SameMem s t) ∧
      ∀ a b c d nat, Gives (exec (.translateDone (.image a b c d nat)) s) fun t => t.bit Reg.WV_LPT_STAT 8 = false ∧
        t.bit Reg.WV_LPT_STAT 9 = true ∧ t.le dst 4 = 0x534F4F4C ∧ t.le (dst + 16) 2 = looseSlots prog ∧ t.le (dst + 18) 2 = looseTiles prog ∧
        (∀ j, j < nat.length → t.byte (dst + 64 + j) = (nat.getD j 0).toNat) ∧ SameMemBut s t dst (64 + nat.length))

/-- A frame on a port that is not enabled or whose address the filter does not pass changes nothing; one of a wrong length
or FCS only counts in NET_RXBAD, an IP fragment in NET_DROPIP, a bad checksum or length in NET_DROPCSUM. A frame for
software with a free entry stands in the receive queue with its length, and its tail moves. The first RTP packet of a
stream, whole, of the bound source and without marker, opens an access unit of its timestamp that holds its payload.
SW_TX_SUBMIT writes the tail; SW_TX_FRAME_SENT moves the head of an enabled queue that holds a frame. A word of an
enabled stream entry is not written and tbl_rej is set; a disabled one takes it, read-only words excepted, and an
entry is never enabled with a field out of range; clearing enable ends reassembly. ANCHOR_COMMIT sets the anchor of
the stream named. REASSEMBLY_TIMEOUT closes an access unit open for its timeout as incomplete, and one not yet due not
at all. -/
def Obligations.CameraIngest : Prop :=
  ∀ s : State,
    (∀ (p : Fin 2) (time : BitVec 64) (fr : List (BitVec 8)),
      let f := fr.map (fun b => b.toNat)
      let body := f.take (f.length - 4)
      let out := exec (.ethernetFrameReceive p time fr) s
      let good := s.bit (Reg.NET_CTRL p.val) 0 = true ∧ s.macOk p.val f = true
      let whole := 64 ≤ f.length ∧ f.length ≤ 9216 ∧ crc32 body = leVal (f.drop (f.length - 4))
      (¬ good → out = .next s) ∧ (good → ¬ whole → out = .next (s.satAdd (Reg.NET_RXBAD p.val) 1)) ∧
      ∀ tag type o, good → whole → tagOf body = some (tag, type, o) →
        (classify type (body.drop o) = .dropIp → out = .next (s.satAdd (Reg.NET_DROPIP p.val) 1)) ∧
        (classify type (body.drop o) = .dropCsum → out = .next (s.satAdd (Reg.NET_DROPCSUM p.val) 1)) ∧
        (let size := 2 ^ s.fld (Reg.NET_SWQ_CFG p.val) 0 4
         let tail := s.fld (Reg.NET_SWRX_TAIL p.val) 0 10
         let a := s.reg64 (Reg.NET_SWRX_BASE_LO p.val) % 2 ^ 40 + 2048 * (tail % size)
         classify type (body.drop o) = .toSw → s.bit (Reg.NET_SWQ_CFG p.val) 8 = true → body.length ≤ 2032 →
          (tail + 1) % size ≠ s.fld (Reg.NET_SWRX_HEAD p.val) 0 10 % size → a + 2048 ≤ s.dramBytes → s.dramBytes ≤ 2 ^ 36 →
          s.chanDead a = false → Gives out fun t => t.fld (Reg.NET_SWRX_TAIL p.val) 0 10 = (tail + 1) % size % 1024 ∧
            t.le a 2 = body.length ∧ t.le (a + 8) 8 = time.toNat ∧ (∀ j, j < body.length → t.byte (a + 16 + j) = body.getD j 0) ∧
            SameMemBut s t a 2048 ∧ t.regN (Reg.NET_TOSW p.val) = min (s.regN (Reg.NET_TOSW p.val) + 1) 0xFFFFFFFF) ∧
        ∀ dst d n, classify type (body.drop o) = .udp dst d → (List.range 512).find? (fun n => s.streamMatch n p.val dst tag) = some n →
          12 ≤ d.length → d.getD 0 0 = 0x80 → d.getD 1 0 < 128 → (s.entry n 3 8 = 0xFF ∨ s.entry n 3 8 = d.getD 1 0) →
          s.bit (streamWord n 0) 19 = false → s.regN (streamWord n 1) = be d 8 4 → (s.recv n).top = none → (s.recv n).au = none →
          (s.recv n).closed = [] → let pk : RtpPkt := ⟨65536 + be d 2 2, false, d.drop 12⟩
          (nalsOf (s.bit (streamWord n 0) 20) [pk]).size ≤ min (s.regN (streamWord n 7)) (s.ringRoom n) →
          Gives out fun t => (t.recv n).au = some ⟨be d 4 4, time.toNat, p.val, [pk]⟩ ∧ SameMem s t ∧
            OnlyRegs { s with ingest := t.ingest } t (fun a => a = Reg.NET_RXRTP p.val)) ∧
    (∀ (p : Fin 2) (v : Word), exec (.swTxSubmit p v) s = .next (s.setFld (Reg.NET_SWTX_TAIL p.val) 0 10 (v.toNat % 1024))) ∧
    (∀ (p : Fin 3) (time : BitVec 64),
      let size := 2 ^ s.fld (Reg.NET_SWQ_CFG p.val) 4 4
      let head := s.fld (Reg.NET_SWTX_HEAD p.val) 0 10
      let runs := s.bit (Reg.NET_CTRL p.val) 0 = true ∧ s.bit (Reg.NET_SWQ_CFG p.val) 9 = true ∧
        head % size ≠ s.fld (Reg.NET_SWTX_TAIL p.val) 0 10 % size
      (runs → Gives (exec (.swTxFrameSent p time) s) fun t => t.fld (Reg.NET_SWTX_HEAD p.val) 0 10 = (head + 1) % size % 1024 ∧
        t.cores = s.cores ∧ SameMemBut s t (s.reg64 (Reg.NET_SWTX_BASE_LO p.val) % 2 ^ 40 + 2048 * (head % size)) 16) ∧
      (¬ runs → exec (.swTxFrameSent p time) s = .next s)) ∧
    (∀ (n : Fin 512) (w : Fin 16) (v : Word),
      (s.streamOn n.val = true → w.val ≠ 0 → exec (.streamEntryWrite n w v) s = .next (s.sticky (Reg.NET_STAT 0) 0)) ∧
      (s.streamOn n.val = true → w.val = 0 → v.getLsbD 16 = false → Gives (exec (.streamEntryWrite n w v) s) fun t =>
        t.streamOn n.val = false ∧ (t.recv n.val).au = none ∧ SameMem s t) ∧
      (s.streamOn n.val = false → Gives (exec (.streamEntryWrite n w v) s) fun t => t.mem = s.mem ∧ t.ingest = s.ingest ∧
        (w.val ∈ [1, 3, 4, 5, 6, 7, 11] → t.reg (streamWord n.val w.val) = v) ∧
        (w.val ∈ [8, 9, 10, 12, 13, 14, 15] → t.reg (streamWord n.val w.val) = s.reg (streamWord n.val w.val)) ∧
        (t.streamOn n.val = true → t.streamOk n.val = true) ∧
        (w.val = 0 → v.getLsbD 16 = true → t.streamOn n.val = false → t.bit (Reg.NET_STAT 0) 0 = true))) ∧
    (let n := s.fld (Reg.NET_ANC_STREAM 0) 0 9
     Gives (exec .anchorCommit s) fun t => t.reg64 (streamWord n 8) = s.reg64 (Reg.NET_ANC_NS_LO 0) ∧
      t.reg (streamWord n 10) = s.reg (Reg.NET_ANC_RTP 0) ∧ Tbl.get (fun _ => false) t.ingest.anchored n = true ∧
      SameMem s t ∧ ∀ a, a ≠ streamWord n 8 → a ≠ streamWord n 9 → a ≠ streamWord n 10 → t.reg a = s.reg a) ∧
    ∀ n : Fin 512, ((s.recv n.val).au = none → exec (.reassemblyTimeout n) s = .next s) ∧
      ∀ a, (s.recv n.val).au = some a → let due := a.since + 1000000 * s.entry n.val 25 8
        (s.time + 1000 ≤ due → exec (.reassemblyTimeout n) s = .next s) ∧
        (a.port < 2 → due < s.time + 1000 → Gives (exec (.reassemblyTimeout n) s) fun t => (t.recv n.val).au = none ∧ t.cores = s.cores ∧
          t.regN (Reg.NET_SSTAT n.val 1) = min (s.regN (Reg.NET_SSTAT n.val 1) + 1) 0xFFFFFFFF)

/-- DECODE_SLOT_OPEN of a timetable entry whose pick has begun, not opened this tick, its core free: with no stamped
access unit the stream's handle gets outcome 0 and this tick; with one that is not whole, outcome 3 with reason
PACKET_LOSS; with one whole IRAP unit, a decode core and a free pool buffer, decoding begins on that unit in a buffer
of the pool and nothing is left pending. DECODE_COMPLETE ends the run: a picture without outputs gives outcome 1 and
counts in VDEC_DECODED, an error loses the stream's references, a fault marks the decode core faulty. DECODE_DEADLINE
at the last pick counts in VDEC_OVRUN and loses the references; the third in a row marks the core faulty. An entry
that has opened, a slot not yet due and a core without a run change nothing. -/
def Obligations.DecodeSlots : Prop :=
  ∀ s : State,
    let handle := fun (t : State) (n : Nat) => Tbl.get (fun _ => []) t.vdec.handles n
    let runOf := fun (t : State) (k : Nat) => Tbl.get (fun _ => none) t.vdec.runs k
    (∀ (i : BitVec 16) (v : Variant) (d : DecSlot) (un ab : Bool), s.variant = some v → v.dec[i.toNat]? = some d →
      let n := d.stream
      let ready := s.ticking = true ∧ i.toNat ∉ s.vdec.opened ∧ d.pick ≤ s.offset ∧ runOf s d.decoder = none
      let pend := fun (t : State) => Tbl.get (fun _ => []) t.ingest.pend n
      (¬ ready → exec (.decodeSlotOpen i un ab) s = .next s) ∧
      (ready → pend s = [] → Gives (exec (.decodeSlotOpen i un ab) s) fun t => (handle t n).getD 20 1 = 0 ∧
        leVal (((handle t n).drop 16).take 4) = s.tick ∧ i.toNat ∈ t.vdec.opened) ∧
      (∀ f p, ready → pend s = [f] → s.physDec d.decoder = some p → f.whole = false →
        Gives (exec (.decodeSlotOpen i un ab) s) fun t => (handle t n).getD 20 0 = 3 ∧ (handle t n).getD 22 0 = 6 ∧ pend t = [] ∧
          runOf t d.decoder = none) ∧
      (∀ f p c j, ready → pend s = [f] → s.physDec d.decoder = some p → f.whole = true → f.irap = true →
        s.poolConf d.pool = some c → j < c.count → (∀ b, b ∈ s.vdec.bufs → b.pool = d.pool → b.index ≠ j) →
        Gives (exec (.decodeSlotOpen i false ab) s) fun t => pend t = [] ∧ ∃ r, runOf t d.decoder = some r ∧ r.au = f ∧
          r.stream = n ∧ r.core = p ∧ r.pool = d.pool ∧ r.index < c.count ∧ r.last = s.weave.tickPick + d.pick + d.deadline)) ∧
    ∀ k : Fin 16, (runOf s k.val = none → (∀ r, exec (.decodeComplete k r) s = .next s) ∧ exec (.decodeDeadline k) s = .next s) ∧
      ∀ r, runOf s k.val = some r →
        let lost := fun (t : State) => Tbl.get (fun _ => false) t.vdec.refsLost r.stream
        (∀ p, s.outSet r.outputs = [] → Gives (exec (.decodeComplete k (.picture p)) s) fun t => runOf t k.val = none ∧
          (handle t r.stream).getD 20 0 = 1 ∧ t.regN Reg.VDEC_DECODED = min (s.regN Reg.VDEC_DECODED + 1) 0xFFFFFFFF ∧
          t.cores = s.cores) ∧
        (Gives (exec (.decodeComplete k .error) s) fun t => runOf t k.val = none ∧ lost t = true ∧ t.cores = s.cores) ∧
        (r.core ≤ 16 → Gives (exec (.decodeComplete k .fault) s) fun t => runOf t k.val = none ∧
          t.bit Reg.VDEC_FAULT r.core = true ∧ t.cores = s.cores) ∧
        (s.pickNow < r.last → exec (.decodeDeadline k) s = .next s) ∧
        (r.last ≤ s.pickNow → r.core ≤ 16 → Gives (exec (.decodeDeadline k) s) fun t => runOf t k.val = none ∧ lost t = true ∧
          t.regN Reg.VDEC_OVRUN = min (s.regN Reg.VDEC_OVRUN + 1) 0xFFFFFFFF ∧ t.bit Reg.VDEC_IRQ_STATUS 3 = true ∧
          (Tbl.get (fun _ => 0) s.vdec.cuts r.core = 2 → t.bit Reg.VDEC_FAULT r.core = true))

/-- ENCODER_SUBMIT of a tail within the ring whose descriptors fit writes the tail, else nothing. ENCODE_COMPLETE of an
enabled encoder with a descriptor waiting, outside HEDGE: the head moves, the encoder counts and its interrupt bit is
set, and a descriptor in DRAM shows its code: UNCORRECTABLE for bytes that cannot be read, BAD_PARAM for parameters
out of range, DONE or OUTPUT_FULL as the coded bytes fit; those of the JPEG encoder stand at its destination.
Otherwise nothing. ENCODER_DISABLE of an enabled encoder ends what waits and clears enable. TIMEBASE_STEP in ARMED,
RUNNING or HEDGE adds five times the step to the rest that the picks absorb and leaves the time; else it moves the
time at once. STEP_ABSORBED with no rest clears the stepping bit. TIMEBASE_SET in IDLE, LOADED, STOPPED or FAILED sets
the time, else it only sets the rejected bit. The pick number is always the time divided by 1,000. -/
def Obligations.EncodersAndTimebase : Prop :=
  ∀ s : State,
    (∀ (e : Fin 2) (v : Word),
      let size := s.encSize e.val
      let tail := s.fld (Reg.VENC_QTAIL e.val) 0 10
      let head := s.fld (Reg.VENC_QHEAD e.val) 0 10
      let t' := v.toNat % 1024
      let fits := t' < size ∧ (tail + size - head) % size + (t' + size - tail) % size ≤ size - 1
      (tail < size → head < size → fits → exec (.encoderSubmit e v) s = .next (s.setFld (Reg.VENC_QTAIL e.val) 0 10 t')) ∧
      (tail < size → head < size → ¬ fits → exec (.encoderSubmit e v) s = .next s) ∧
      (s.bit (Reg.VENC_QCFG e.val) 8 = true → v.getLsbD 8 = true → exec (.encoderDisable e v) s = .next s) ∧
      (s.bit (Reg.VENC_QCFG e.val) 8 = true → v.getLsbD 8 = false → Gives (exec (.encoderDisable e v) s) fun t =>
        t.bit (Reg.VENC_QCFG e.val) 8 = false ∧ t.cores = s.cores ∧
        t.regN (Reg.VENC_DONE e.val) = (s.regN (Reg.VENC_DONE e.val) + (tail + size - head % size) % size) % 2 ^ 32) ∧
      (s.bit (Reg.VENC_QCFG e.val) 8 = false → exec (.encoderDisable e v) s =
        .next (s.setRegN (Reg.VENC_QCFG e.val) (v.toNat &&& 0x10F)))) ∧
    (∀ (e : Fin 2) (r : EncodeResult),
      let k := e.val
      let head := s.fld (Reg.VENC_QHEAD k) 0 10
      let size := s.encSize k
      let a := s.encEntry k head
      let d := s.bytes a 64
      let lines := sub d 12 2 * sub d 10 2
      let cap := if k = 0 then sub d 40 8 else sub d 32 8
      let code := if s.badRange a 64 then 4 else if encBad k d then 3 else match r with
        | .uncorrectable => 4
        | .coded bs _ => if s.badRange (sub d 0 8) (lines + lines / 2) then 4 else if bs.length ≤ cap then 1 else 2
      let runs := s.bit (Reg.VENC_QCFG k) 8 = true ∧ head % size ≠ s.fld (Reg.VENC_QTAIL k) 0 10 % size ∧ s.weaveState ≠ 6
      (¬ runs → exec (.encodeComplete e r) s = .next s) ∧
      (runs → Gives (exec (.encodeComplete e r) s) fun t => t.fld (Reg.VENC_QHEAD k) 0 10 = (head + 1) % size % 1024 ∧
        t.regN (Reg.VENC_DONE k) = (s.regN (Reg.VENC_DONE k) + 1) % 2 ^ 32 ∧ t.bit (Reg.VENC_IRQ k) 0 = true ∧ t.cores = s.cores ∧
        (a + 64 ≤ s.dramBytes → s.dramBytes ≤ 2 ^ 36 → (∀ b, s.chanDead b = false) → t.le (a + 48) 4 = code + 2 ^ 31 ∧
          ∀ bs rec, k = 1 → r = .coded bs rec → code = 1 → sub d 24 8 + bs.length ≤ s.dramBytes →
            (sub d 24 8 + bs.length ≤ a + 48 ∨ a + 64 ≤ sub d 24 8) →
            ∀ j, j < bs.length → t.byte (sub d 24 8 + j) = (bs.getD j 0).toNat))) ∧
    (∀ v : Word,
      let step := signed64 (s.regN Reg.TBS_STEP_LO) v.toNat
      let w := s.weaveState
      (w = 3 ∨ w = 4 ∨ w = 6 → Gives (exec (.timebaseStep v) s) fun t => t.stepRest = s.stepRest + 5 * step ∧
        t.time = s.time ∧ t.bit Reg.TBS_STATUS 0 = (t.stepRest != 0) ∧ SameMem s t) ∧
      (w ≠ 3 → w ≠ 4 → w ≠ 6 → Gives (exec (.timebaseStep v) s) fun t => (t.time : Int) = ((s.time : Int) + step) % 2 ^ 64 ∧
        t.pickNow = t.time / 1000 ∧ t.stepRest = s.stepRest ∧ SameMem s t) ∧
      (w = 0 ∨ w = 2 ∨ w = 5 ∨ w = 7 → Gives (exec (.timebaseSet v) s) fun t =>
        t.time = s.regN Reg.TBS_SET_LO + v.toNat * 2 ^ 32 ∧ t.pickNow = t.time / 1000 ∧ SameMem s t) ∧
      (w = 1 ∨ w = 3 ∨ w = 4 ∨ w = 6 → exec (.timebaseSet v) s = .next (s.sticky Reg.TBS_STATUS 1))) ∧
    (s.stepRest = 0 → exec .stepAbsorbed s = .next (s.putBit Reg.TBS_STATUS 0 false)) ∧
    (s.stepRest ≠ 0 → exec .stepAbsorbed s = .next s)

/-- An active VSYNC edge sets the signal bit, counts a frame still open as good if it was done and as malformed if not,
and opens a frame with its capture time if the port is enabled, else none. In DE mode a line of the set width is the
next line of the open frame, an 8-bit one written at its place in the raw buffer, and the last one makes it done; a
line of another width closes it as malformed; a line after the last only counts as extra. PIXEL_FRAME_CLOSE of a done
frame, the weave RUNNING and the stream bound with fewer than 16 pending, counts it and stamps it with the next frame
number; of none or an unfinished one it does nothing. PIXEL_FRAME_TIMEOUT closes an unfinished frame once its time has
passed. PIXEL_NO_SIGNAL clears the signal bit once no edge came in time. PCLK_MEASURE records the measurement, and too
fast an in-line port sets its interrupt bit. Writing PIX_CTRL enables or disables the port and abandons an open frame. -/
def Obligations.PixelPorts : Prop :=
  ∀ (n : Fin 4) (s : State),
    let k := n.val
    let frame := fun (t : State) => (t.pixPort k).frame
    let up := fun (t : State) (a : Nat) => t.regN a = min (s.regN a + 1) 0xFFFFFFFF
    let de := s.bit (Reg.PIX_CFG k) 7
    (∀ time : BitVec 64, Gives (exec (.pixelVsyncEdge n time) s) fun t => t.bit (Reg.PIX_STATUS k) 0 = true ∧
      (t.pixPort k).edge = time.toNat ∧
      (s.bit (Reg.PIX_CTRL k) 0 = true → ∃ f, frame t = some f ∧ f.since = time.toNat ∧ f.lines = 0 ∧ f.done = false ∧
        f.capture = (time.toNat + 2 ^ 64 - s.regN (Reg.PIX_CAPOFF k)) % 2 ^ 64) ∧
      (s.bit (Reg.PIX_CTRL k) 0 = false → frame t = none) ∧
      ∀ f, frame s = some f → f.buffer.isSome = true → up t (if f.done then Reg.PIX_FRAMES k else Reg.PIX_MALFORMED k)) ∧
    (∀ (f : PixFrame) (vs : List (BitVec 16)), frame s = some f → de = true →
      (f.done = true → exec (.pixelLineEnd n vs) s = .next ((s.satAdd (Reg.PIX_EXTRA k) 1).sticky (Reg.PIX_IRQ_STATUS k) 6)) ∧
      (f.done = false → vs.length = s.fld (Reg.PIX_GEOM k) 0 13 → s.inline k = false → Gives (exec (.pixelLineEnd n vs) s) fun t =>
        frame t = some { f with lines := f.lines + 1, wide := vs.length, done := decide (s.fld (Reg.PIX_GEOM k) 16 13 ≤ f.lines + 1) } ∧
        ∀ p i, f.buffer = some (p, i) → s.fld (Reg.PIX_CFG k) 0 3 = 0 → s.dramBytes ≤ 2 ^ 36 →
          let at_ := s.bufAddr p i + f.lines * s.rawPitch k
          at_ + vs.length ≤ s.dramBytes → s.chanDead at_ = false →
          SameMemBut s t at_ vs.length ∧ ∀ j, j < vs.length → t.byte (at_ + j) = (vs.getD j 0).toNat % 256) ∧
      (f.done = false → vs.length ≠ s.fld (Reg.PIX_GEOM k) 0 13 → f.buffer.isSome = true → Gives (exec (.pixelLineEnd n vs) s) fun t =>
        frame t = none ∧ up t (Reg.PIX_MALFORMED k) ∧ SameMem s t)) ∧
    (let q := 0x400 + k
     let pend := fun (t : State) => Tbl.get (fun _ => []) t.ingest.pend q
     let num := Tbl.get (fun _ => 0) s.weave.nextFrame q
     (∀ f b, frame s = some f → f.done = true → f.buffer = some b → f.bad = false → s.inline k = false → s.weaveState = 4 →
      s.weave.bound.contains q = true → (pend s).length < 16 → Gives (exec (.pixelFrameClose n) s) fun t => frame t = none ∧
        up t (Reg.PIX_FRAMES k) ∧ Tbl.get (fun _ => 0) t.weave.nextFrame q = (num + 1) % 2 ^ 32 ∧ SameMem s t ∧
        ∃ e, pend t = pend s ++ [e] ∧ e.frame = num ∧ e.capture = f.capture ∧ e.outcome = 0 ∧ e.buffer = some b) ∧
     ((∀ f, frame s = some f → f.done = false) → exec (.pixelFrameClose n) s = .next s)) ∧
    (∀ f, frame s = some f → let due := f.since + 1000 * s.fld (Reg.PIX_TIMEOUT k) 0 20
      (f.done = false → due < s.time + 1000 → f.buffer.isSome = true → Gives (exec (.pixelFrameTimeout n) s) fun t =>
        frame t = none ∧ up t (Reg.PIX_TIMEOUTS k) ∧ SameMem s t) ∧
      (f.done = true ∨ s.time + 1000 ≤ due → exec (.pixelFrameTimeout n) s = .next s)) ∧
    (let due := (s.pixPort k).edge + 1000000 * s.fld (Reg.PIX_NOSIG k) 0 10
     (s.bit (Reg.PIX_STATUS k) 0 = true → due < s.time + 1000 → exec (.pixelNoSignal n) s =
        .next ((s.putBit (Reg.PIX_STATUS k) 0 false).sticky (Reg.PIX_IRQ_STATUS k) 4)) ∧
     (s.bit (Reg.PIX_STATUS k) 0 = false ∨ s.time + 1000 ≤ due → exec (.pixelNoSignal n) s = .next s)) ∧
    (∀ khz : BitVec 18, Gives (exec (.pclkMeasure n khz) s) fun t => t.regN (Reg.PIX_PCLKMEAS k) = khz.toNat ∧
      (s.inline k = false → t = s.setRegN (Reg.PIX_PCLKMEAS k) khz.toNat) ∧
      (s.inline k = true → s.fld Reg.ISP_CFG 8 8 * 102000 < khz.toNat * 100 → t.bit (Reg.PIX_IRQ_STATUS k) 5 = true)) ∧
    ∀ v : Word, Gives (exec (.pixelPortEnable n v) s) fun t => t.bit (Reg.PIX_CTRL k) 0 = v.getLsbD 0 ∧ SameMem s t ∧
      (v.getLsbD 0 = true → frame t = frame s ∧ (t.pixPort k).seen = false) ∧ (v.getLsbD 0 = false → frame t = none)

/-- ISP_COMMIT of a context whose statistics window is in range marks it pending, else it only sets ISP_IRQ_STATUS.window.
ISP_SLOT_OPEN of a timetable entry whose pick has begun, not opened this tick, with no pass running for a memory
entry: with no pending frame the port's handle gets outcome 0; a frame that closed badly gives outcome 3 with its
reason; an in-line frame gives outcome 1; a good frame with a free pool buffer begins a memory pass in it, shown in
ISP_STATUS, and the frame is no longer pending. ISP_PASS_COMPLETE of a pass without outputs publishes outcome 1,
counts in ISP_PASSES and ends the pass. ISP_PASS_CUTOFF at the deadline counts in ISP_OVRUN, ends the pass and gives
outcome 3 with MISSING_INPUT. Without a pass, before the deadline, or for a slot not ready, each changes nothing. -/
def Obligations.IspSlots : Prop :=
  ∀ s : State,
    let handle := fun (t : State) (p : Nat) => Tbl.get (fun _ => []) t.vdec.handles (0x400 + p)
    (∀ n : Fin 4, (s.windowOk n.val = true → exec (.ispCommit n) s = .next (s.putBit (Reg.ISP_CTX_GEN n.val) 16 true)) ∧
      (s.windowOk n.val = false → exec (.ispCommit n) s = .next (s.sticky Reg.ISP_IRQ_STATUS 3))) ∧
    (∀ (i : BitVec 16) (v : Variant) (d : IspSlot), s.variant = some v → v.isp[i.toNat]? = some d → d.port < 4 →
      let pend := fun (t : State) => Tbl.get (fun _ => []) t.ingest.pend (0x400 + d.port)
      let ready := s.ticking = true ∧ i.toNat ∉ s.isp.opened ∧ d.pick ≤ s.offset ∧ (d.kind = 0 ∨ s.isp.pass = none)
      (¬ ready → exec (.ispSlotOpen i) s = .next s) ∧
      (ready → pend s = [] → Gives (exec (.ispSlotOpen i) s) fun t => (handle t d.port).getD 20 1 = 0 ∧ i.toNat ∈ t.isp.opened ∧
        t.isp.pass = s.isp.pass) ∧
      ∀ f, ready → pend s = [f] →
        (f.outcome ≠ 0 → Gives (exec (.ispSlotOpen i) s) fun t => (handle t d.port).getD 20 0 = 3 ∧
          (handle t d.port).getD 22 0 = f.outcome % 256 ∧ pend t = []) ∧
        (∀ o, f.outcome = 0 → d.kind = 0 → f.out = some o → Gives (exec (.ispSlotOpen i) s) fun t =>
          (handle t d.port).getD 20 0 = 1 ∧ pend t = []) ∧
        ∀ c j, f.outcome = 0 → d.kind ≠ 0 → s.poolConf d.pool = some c → j < c.count →
          (∀ b, b ∈ s.vdec.bufs → b.pool = d.pool → b.index ≠ j) → Gives (exec (.ispSlotOpen i) s) fun t => pend t = [] ∧
            t.fld Reg.ISP_STATUS 0 3 = 1 + 2 * d.port ∧ ∃ r, t.isp.pass = some r ∧ r.frame = f ∧ r.port = d.port ∧ r.pool = d.pool ∧
              r.index < c.count ∧ r.last = s.weave.tickPick + d.pick + d.deadline) ∧
    (s.isp.pass = none → exec .ispPassComplete s = .next s ∧ exec .ispPassCutoff s = .next s) ∧
    ∀ r, s.isp.pass = some r → r.port < 4 →
      (r.frame.buffer.isSome = true → s.outSet r.outputs = [] → Gives (exec .ispPassComplete s) fun t => t.isp.pass = none ∧
        (handle t r.port).getD 20 0 = 1 ∧ t.regN Reg.ISP_PASSES = min (s.regN Reg.ISP_PASSES + 1) 0xFFFFFFFF ∧
        t.bit Reg.ISP_IRQ_STATUS 0 = true ∧ t.cores = s.cores) ∧
      (s.pickNow < r.last → exec .ispPassCutoff s = .next s) ∧
      (r.last ≤ s.pickNow → Gives (exec .ispPassCutoff s) fun t => t.isp.pass = none ∧ (handle t r.port).getD 20 0 = 3 ∧
        (handle t r.port).getD 22 0 = 4 ∧ t.regN Reg.ISP_OVRUN = min (s.regN Reg.ISP_OVRUN + 1) 0xFFFFFFFF ∧ t.cores = s.cores)

/-- DRAM_INIT while neither ready nor busy makes the controller busy and takes fill, else it sets rej. Its end makes DRAM
ready with its configuration and capacity, all of it reading 0 after a fill, or records the failure. A flush makes it
busy; its end leaves no dirty check block. A request that hits the system cache reaches no channel; one that misses
without allocating enters its channel's read queue. An issue takes a due refresh at its limit, or moves the chosen
read into flight. A read completes the oldest: a clean line only leaves flight, 1 to 8 wrong bits count as corrected,
9 to 16, or a marked line, as uncorrectable. Refreshes fall due, refresh management takes a bank's count down and
closes its row, a quiet window records mode register 4 every fourth time, an idle rank powers down, an idle row
closes, and a request outstanding 100 µs makes the channel faulty. On a faulty channel or before initialisation
nothing happens. -/
def Obligations.DramController : Prop :=
  ∀ s : State,
    let busy := s.bit Reg.DMC_STATUS 1
    let up := fun (t : State) (a : Nat) => t.regN a = min (s.regN a + 1) 0xFFFFFFFF
    (∀ fill : Bool, let put := s.putBit Reg.DMC_CTRL 1 fill
      (busy = false → s.dramReady = false → exec (.dramInit fill) s = .next (put.setRegN Reg.DMC_STATUS 2)) ∧
      (busy = true ∨ s.dramReady = true → exec (.dramInit fill) s = .next (put.sticky Reg.DMC_STAT 0)) ∧
      (busy = false → s.dramReady = true → exec (.dramFlush fill) s = .next (put.putBit Reg.DMC_STATUS 1 true))) ∧
    (busy = true → s.dramReady = false → s.boot.rest = none →
      (∀ dense two rfm, Gives (exec (.dramInitComplete (.ok dense two rfm)) s) fun t => t.regN Reg.DMC_STATUS = 1 ∧
        t.regN Reg.DMC_CAP = dramCap dense two ∧ t.bit Reg.DMC_IRQ_STATUS 0 = true ∧ t.cores = s.cores ∧
        (s.bit Reg.DMC_CTRL 1 = true → ∀ a, a < 2 ^ 36 → t.byte a = 0) ∧ (s.bit Reg.DMC_CTRL 1 = false → SameMem s t)) ∧
      ∀ c m, s.weaveState ≠ 3 → Gives (exec (.dramInitComplete (.fail c m)) s) fun t =>
        t.regN Reg.DMC_STATUS = 4 + c.toNat * 8 + m.toNat * 64 ∧ t.bit Reg.DMC_IRQ_STATUS 1 = true ∧ SameMem s t) ∧
    (busy = false → ∀ r, exec (.dramInitComplete r) s = .next s) ∧
    (busy = true → s.dramReady = true → Gives (exec .dramFlushComplete s) fun t => t.bit Reg.DMC_STATUS 1 = false ∧ SameMem s t ∧
      ∀ k e, k < 16 → e ∈ (t.chan k).check → e.2.2 = false) ∧
    (∀ (l : BitVec 29) (c : Fin 8) (w na part close : Bool),
      let i := l.toNat % 16384
      let k := (s.dramDecode (128 * l.toNat)).ch
      let hit := (List.range 16).find? (fun y => match (s.scSet i).way y with | some x => x.line == l.toNat | none => false)
      (s.dramReady = false → exec (.dramRequest l c w na part close false) s = .next s) ∧
      (s.dramReady = true → 128 * (l.toNat + 1) ≤ s.dramBytes →
        (∀ y x, hit = some y → (s.scSet i).way y = some x → Gives (exec (.dramRequest l c w na part close false) s) fun t =>
          (t.scSet i).way y = some { x with dirty := x.dirty || w } ∧ t.dram.chans = s.dram.chans ∧ t.regs = s.regs ∧ t.mem = s.mem) ∧
        (hit = none → s.chanFault k = false → (s.chan k).writes = [] → (s.chan k).reads.length < 64 →
          Gives (exec (.dramRequest l c false true part close false) s) fun t => t.mem = s.mem ∧
            ∃ r : ChanReq, r.line = l.toNat ∧ r.write = false ∧ (t.chan k).reads = (s.chan k).reads ++ [r]))) ∧
    ∀ ch : Fin 16, let k := ch.val
      let off := s.dramReady = false ∨ s.chanFault k = true
      let on := s.dramReady = true ∧ s.chanFault k = false
      let due := fun (t : State) (b : Nat) => Tbl.get (fun _ => 0) (t.chan k).due b
      (off → exec (.dramAccessIssue ch) s = .next s ∧ (∀ b, exec (.dramRefresh ch b) s = .next s ∧ exec (.refreshManagement ch b) s = .next s) ∧
        ∀ a b m h, exec (.quietWindow ch a b m h) s = .next s) ∧
      (on → let h := s.countHeld k
        (∀ b, h.nextRefresh k true = some b → Gives (exec (.dramAccessIssue ch) s) fun t => due t b = due s b - 1 ∧
          (t.chan k).openRow b = none ∧ up t (Reg.DCH_REF k)) ∧
        (∀ r f, h.nextRefresh k true = none → h.nextReq k = some (r, f) → (f = true ∨ h.nextRefresh k false = none) → r.write = false →
          Gives (exec (.dramAccessIssue ch) s) fun t => (t.chan k).flight = (s.chan k).flight ++ [r] ∧ t.mem = s.mem)) ∧
      (∀ r rest raw, (s.chan k).flight = r :: rest →
        (s.lineBad r.line = false → Gives (exec (.dramReadComplete ch 0 false raw) s) fun t => (t.chan k).flight = rest ∧ SameMem s t) ∧
        (∀ e : BitVec 11, s.lineBad r.line = false → 1 ≤ e.toNat → e.toNat ≤ 8 → Gives (exec (.dramReadComplete ch e false raw) s) fun t =>
          up t (Reg.DCH_CE k) ∧ SameMem s t) ∧
        ∀ e : BitVec 11, (s.lineBad r.line = true ∨ (9 ≤ e.toNat ∧ e.toNat ≤ 16)) → Gives (exec (.dramReadComplete ch e false raw) s)
          fun t => up t (Reg.DCH_UE k)) ∧
      (∀ b : Fin 32, on → Gives (exec (.dramRefresh ch b) s) (fun t => due t b.val = due s b.val + 1 ∧ t.mem = s.mem) ∧
        (s.rfmDue k b.val = true → Gives (exec (.refreshManagement ch b) s) fun t => (t.chan k).openRow b.val = none ∧
          Tbl.get (fun _ => 0) (t.chan k).raa b.val = Tbl.get (fun _ => 0) (s.chan k).raa b.val - s.dram.rfm ∧ up t (Reg.DCH_RFM k))) ∧
      (∀ m hot, on → s.pickNow % 64 = 4 * k % 64 → (s.chan k).lastQuiet ≠ some s.pickNow →
        Gives (exec (.quietWindow ch .ok .ok m hot) s) fun t => (t.chan k).lastQuiet = some s.pickNow ∧
          ((s.chan k).windows % 4 = 3 → t.regN (Reg.DCH_MR4 k) = m.toNat)) ∧
      (∀ r : Fin 2, let t0 := s.fld Reg.DMC_PD 0 16
        (s.dramReady = true → t0 ≠ 0 → ((s.chan k).reads ++ (s.chan k).writes).any (fun x => x.bank / 16 == r.val) = false →
          Tbl.get (fun _ => 0) (s.chan k).lastReq r.val + 8 * t0 < s.time + 1000 →
          exec (.powerDownEntry ch r) s = .next (s.putBit (Reg.DCH_STATUS k) (5 + r.val) true)) ∧
        (t0 = 0 → exec (.powerDownEntry ch r) s = .next s)) ∧
      (∀ (b : Fin 32) row last, Tbl.get (fun _ => none) (s.chan k).rows b.val = some (row, last) → let t0 := s.fld Reg.DMC_PAGE 0 12
        (t0 ≠ 0 → s.bit Reg.DMC_CFG 3 = false → last + t0 < s.time + 1000 → Gives (exec (.openRowIdleClose ch b) s) fun t =>
          (t.chan k).openRow b.val = none ∧ t.mem = s.mem) ∧
        (t0 = 0 ∨ s.time + 1000 ≤ last + t0 → exec (.openRowIdleClose ch b) s = .next s)) ∧
      (let late := ((s.chan k).reads ++ (s.chan k).writes ++ (s.chan k).flight).any (fun r => decide (r.since + 100000 < s.time + 1000))
       (late = true → Gives (exec (.dramRequestTimeout ch) s) fun t => t.chanFault k = true) ∧
       (late = false → exec (.dramRequestTimeout ch) s = .next s))

/-- SRAM_PATROL of a clean word changes nothing; a corrected one counts and is noted for a second read; an uncorrectable
one counts, poisons its block in a core's scratchpad, marks its line in the dirty system cache, and halts a core
without a role with UNCORR_CTRL (0x0B) in program memory. HARD_FAULT_RECHECK takes the oldest noted word: clean again,
nothing more; faulty again, it counts, and while a spare is left a repair entry for it is added. SCRUB_GO of a
128-byte aligned range of DRAM while no pass runs starts a pass at its first line, else it only sets the error bit;
SCRUB_ABORT marks the pass; SCRUB_PASS_END of a pass whose lines have all been read writes the summary and ends it,
and does nothing before. CLOCK_DOMAIN_NO_ANSWER marks its cluster lost until the next reset. -/
def Obligations.FaultsAndScrub : Prop :=
  ∀ s : State,
    let up := fun (t : State) (a : Nat) => t.regN a = min (s.regN a + 1) 0xFFFFFFFF
    (∀ (k : SramKind) (u : BitVec 7) (m : BitVec 16) (a : BitVec 40),
      exec (.sramPatrol k u m a .clean) s = .next s ∧
      Gives (exec (.sramPatrol k u m a .corrected) s) (fun t => up t Reg.RAS_CE_SRAM ∧
        t.dram.recheck = s.dram.recheck ++ [(k, u.toNat, m.toNat)] ∧ SameMem s t ∧ t.cores = s.cores) ∧
      Gives (exec (.sramPatrol k u m a .uncorrectable) s) (fun t => up t Reg.RAS_UE_SRAM ∧
        (k = .systemDirty → t.lineBad (a.toNat / 128) = true ∧ t.cores = s.cores) ∧
        (∀ q key, k = .scratchpad → tagKey a.toNat = some (q, key) → (t.blockTag q key).cause ≠ .clean ∧ SameMem s t) ∧
        (k = .program → s.coreState u.toNat ≠ 3 → u.toNat < 72 → s.roleOf u.toNat = none → s.failover (u.toNat / 9) = none →
          t.coreState u.toNat = 3 ∧ t.fld (Reg.CORE_HALT_REASON u.toNat) 0 8 = 0x0B))) ∧
    (∀ (col : Bool) (ix : BitVec 16) (fac : Fin 3),
      (s.dram.recheck = [] → ∀ b, exec (.hardFaultRecheck b col ix fac) s = .next s) ∧
      ∀ k u m rest, s.dram.recheck = (k, u, m) :: rest →
        exec (.hardFaultRecheck false col ix fac) s = .next { s with dram := { s.dram with recheck := rest } } ∧
        (let kind := if col then 2 else 1
         (s.dram.repairs.filter (fun e => e.kind == kind && e.unit == u && e.mac == m)).length + fac.val < 2 →
          s.dram.repairs.length < 2048 → Gives (exec (.hardFaultRecheck true col ix fac) s) fun t => t.dram.recheck = rest ∧
            up t Reg.RAS_HARD ∧ t.dram.repairs = s.dram.repairs ++ [⟨kind, u, m, ix.toNat, s.time⟩])) ∧
    (let a := s.reg64 Reg.SCRB_START_LO
     let n := s.reg64 Reg.SCRB_LEN_LO
     (a % 128 = 0 → n % 128 = 0 → a + n ≤ s.dramBytes → s.bit Reg.SCRB_STATUS 0 = false → Gives (exec .scrubGo s) fun t =>
      t.bit Reg.SCRB_STATUS 0 = true ∧ t.reg64 Reg.SCRB_POS_LO = a ∧ SameMem s t ∧
      ∃ k, t.dram.scrub = some k ∧ k.start = a ∧ k.next = a ∧ k.stop = a + n ∧ k.ce = 0 ∧ k.ue = 0) ∧
     (a % 128 ≠ 0 ∨ n % 128 ≠ 0 ∨ s.bit Reg.SCRB_STATUS 0 = true → exec .scrubGo s = .next (s.sticky Reg.SCRB_STATUS 2))) ∧
    (Gives (exec .scrubAbort s) fun t => t.dram.scrub = s.dram.scrub.map (fun k => { k with abort := true }) ∧ t.regs = s.regs ∧
      t.mem = s.mem) ∧
    (s.dram.scrub = none → ∀ l, exec (.scrubPassEnd l) s = .next s) ∧
    (∀ k, s.dram.scrub = some k → k.start < 0x1300000000 →
      let busy := (List.range 16).any (fun ch => ((s.chan ch).reads ++ (s.chan ch).flight).any (fun r => r.scrub))
      (k.abort = false → k.next < k.stop → ∀ l, exec (.scrubPassEnd l) s = .next s) ∧
      (busy = false → (k.abort = true ∨ k.stop ≤ k.next) → ∀ l, Gives (exec (.scrubPassEnd l) s) fun t => t.dram.scrub = none ∧
        t.reg64 Reg.SCRB_SUM_BYTES_LO = (k.next - k.start) % 2 ^ 64 ∧ t.regN Reg.SCRB_SUM_CE = min k.ce 0xFFFFFFFF ∧
        t.regN Reg.SCRB_SUM_UE = min k.ue 0xFFFFFFFF ∧ t.bit Reg.SCRB_STATUS 0 = false ∧ t.bit Reg.SCRB_STATUS 3 = true ∧
        SameMem s t ∧ t.cores = s.cores)) ∧
    ∀ g : Fin 8, (g.val < s.clusters → Gives (exec (.clockDomainNoAnswer g) s) fun t => t.bit Reg.WV_FAULTSET (8 + g.val) = true ∧
        t.weave.hardFaults.testBit (8 + g.val) = true ∧ SameMem s t ∧ t.cores = s.cores) ∧
      (s.clusters ≤ g.val → exec (.clockDomainNoAnswer g) s = .next s)

/-- ESTIMATOR_PERIOD shows the estimate of its counts, moves both averages and the loose limit by R392 and R393, gives the
limit to every core whose cluster is under no alarm, and takes the written profile from the next period on.
PROFILE_WRITE of 45, 60 or 90 W that no loaded image exceeds writes the profile; another only sets rej, a locked one
is a lock violation. VF_EVALUATION steps a die that is due for its temperature down by one and notes the time; alone
and due for nothing, a die that may rise steps up by one. VOLTAGE_TRANSACTION_COMPLETE makes the voltage sent the set
voltage and lets a clock raise that waited for it take effect. HINT_TAKES_EFFECT sets the level of the oldest hint
whose pick has come. A droop counts and marks its cluster, its recovery counts the cycles and clears the mark, and a
deep droop of 100 µs makes the rail faulty and the die lost. With nothing to do each changes nothing. -/
def Obligations.PowerGovernor : Prop :=
  ∀ s : State,
    (∀ c : PowerCounts,
      let p0 := s.diePower 0 c.die0
      let p1 := if s.dies = 2 then s.diePower 1 c.die1 else 0
      let p := p0 + p1 + s.ioPower c.io
      let af := average s.power.avgF p 6
      let as := average s.power.avgS p 13
      let k := nextLimit p af as s.power.profile (s.fld Reg.PWR_LOOSEK 0 5) s.power.kSince s.time
      Gives (exec (.estimatorPeriod c) s) fun t => t.fld Reg.PWR_EST 0 24 = p % 2 ^ 24 ∧ t.power.avgF = af ∧ t.power.avgS = as ∧
        t.fld Reg.PWR_LOOSEK 0 5 = k % 32 ∧ t.power.profile = s.fld Reg.PWR_PROFILE 0 8 ∧ SameMem s t ∧ t.cores = s.cores ∧
        ∀ q, q < 9 * s.clusters → s.bit (Reg.CLU_THERMST (q / 9)) 0 = false → s.bit (Reg.CLU_THERMST (q / 9)) 1 = false →
          t.regN (Reg.CORE_LLIMIT q) = k % 32) ∧
    (∀ (v : Word) (m : BitVec 8),
      let w := v.toNat % 256
      let bad := (w ≠ 45 ∧ w ≠ 60 ∧ w ≠ 90) ∨ ∃ q, q ∈ s.imageProfiles ∧ w < q
      (s.bit Reg.PWR_LOCK 0 = true → exec (.profileWrite v m) s = .next (s.lockViolation Reg.PWR_PROFILE m.toNat)) ∧
      (s.bit Reg.PWR_LOCK 0 = false → bad → exec (.profileWrite v m) s = .next (s.sticky Reg.PWR_STATUS 4)) ∧
      (s.bit Reg.PWR_LOCK 0 = false → ¬ bad → Gives (exec (.profileWrite v m) s) fun t => t.fld Reg.PWR_PROFILE 0 8 = w ∧
        t.power = s.power ∧ SameMem s t)) ∧
    (∀ d, d < s.dies → (s.rail d).faulty = false → 0 < (s.rail d).goal → s.thermalDue d = true →
      Gives (exec .vfEvaluation s) fun t => (t.rail d).goal = (s.rail d).goal - 1 ∧ (t.rail d).thermal = some s.time ∧ SameMem s t) ∧
    (s.dies = 1 → (s.rail 0).faulty = false → s.bit Reg.PWR_CTRL 0 = false → s.thermalDue 0 = false → s.powerDue = false →
      ({ s with power := { s.power with fixedIn := none } }).mayRise 0 = true →
      Gives (exec .vfEvaluation s) fun t => (t.rail 0).goal = (s.rail 0).goal + 1 ∧ SameMem s t) ∧
    (∀ d : Fin 2, let r := s.rail d.val
      (r.sending = none → exec (.voltageTransactionComplete d) s = .next s) ∧
      ∀ v, r.sending = some v → Gives (exec (.voltageTransactionComplete d) s) fun t => t.vset d.val = v % 1024 ∧ SameMem s t ∧
        t.cores = s.cores ∧ (s.dieStep d.val < r.goal → s.ownVolts d.val ≤ v → t.dieStep d.val = r.goal % 16) ∧
        (r.goal ≤ s.dieStep d.val ∨ v < s.ownVolts d.val → t.dieStep d.val = s.dieStep d.val)) ∧
    (let oldest := s.weave.hints.find? (fun h => decide (h.2.2 ≤ s.pickNow))
     (oldest = none → exec .hintTakesEffect s = .next s) ∧
     ∀ h, oldest = some h → Gives (exec .hintTakesEffect s) fun t => t.hintOf h.1 = h.2.1 ∧
      t.weave.hints = s.weave.hints.erase h ∧ SameMem s t ∧ t.cores = s.cores) ∧
    ∀ g : Fin 8,
      let st := Reg.CLU_THERMST g.val
      let add := fun (t : State) (a n : Nat) => t.regN a = min (s.regN a + n) 0xFFFFFFFF
      (g.val < s.clusters → s.bit st 2 = false → Gives (exec (.droopDetected g) s) fun t => t.bit st 2 = true ∧
        add t (Reg.CLU_DROOPEV g.val) 1 ∧ OnlyRegs s t (fun a => a = st ∨ a = Reg.CLU_DROOPEV g.val)) ∧
      (s.bit st 2 = true → exec (.droopDetected g) s = .next s) ∧
      (∀ n : Word, (s.bit st 2 = true → Gives (exec (.droopRecovered g n) s) fun t => t.bit st 2 = false ∧
          add t (Reg.CLU_DROOPCYC g.val) n.toNat ∧ OnlyRegs s t (fun a => a = st ∨ a = Reg.CLU_DROOPCYC g.val)) ∧
        (s.bit st 2 = false → exec (.droopRecovered g n) s = .next s)) ∧
      (g.val / 4 < s.dies → (s.rail (g.val / 4)).faulty = false → Gives (exec (.deepDroopExpiry g) s) fun t =>
        (t.rail (g.val / 4)).faulty = true ∧ t.bit Reg.WV_FAULTSET (16 + g.val / 4) = true ∧ SameMem s t ∧ t.cores = s.cores) ∧
      ((s.rail (g.val / 4)).faulty = true → exec (.deepDroopExpiry g) s = .next s)

/-- PMBUS_POLL of a die with a regulator stores its status word and counts no miss, or counts a miss; a word with a fault
bit, or the third miss in a row, makes the rail faulty. A mailbox write with go, while none runs, of at most 8 bytes
and not a VOUT_COMMAND to a compute rail, starts the transaction, else it only sets the refused bit; its end is shown
with acknowledge and the bytes read. SENSOR_CONVERSION stores the temperature with its valid bit, and the throttle bit
of its cluster is set from the throttle point on and cleared below it minus 5 °C. THERMAL_EMERGENCY_EXPIRY during an
emergency enters HEDGE. FAN_TACH_COUNT stores the pulses, and the second zero in a row at 30 % duty or more marks the
fan. WAKE_START of the first waiting unit of its class, a core only with its cluster awake, begins its wake, and
WAKE_COMPLETE of a waking unit wakes it. Otherwise nothing changes. -/
def Obligations.PowerSupervision : Prop :=
  ∀ s : State,
    (∀ (w0 w1 : Option (BitVec 16)) (d : Nat), d < s.dies → s.bit (Reg.PMB_RAIL0 + 4 * d) 16 = true →
      let w := if d = 0 then w0 else w1
      Gives (exec (.pmbusPoll w0 w1) s) fun t => SameMem s t ∧
        (∀ x, w = some x → t.fld Reg.PMB_RAILSTAT (16 * d) 16 = x.toNat ∧ (t.rail d).missed = 0 ∧
          (t.rail d).faulty = ((s.rail d).faulty || statusFaulty x.toNat)) ∧
        (w = none → (t.rail d).missed = (s.rail d).missed + 1 ∧
          (t.rail d).faulty = ((s.rail d).faulty || decide (2 ≤ (s.rail d).missed)))) ∧
    (∀ v : Word,
      let n := v.toNat
      let compute := ∃ d, d < 2 ∧ s.bit (Reg.PMB_RAIL0 + 4 * d) 16 = true ∧ s.fld (Reg.PMB_RAIL0 + 4 * d) 0 7 = n % 128
      let refused := s.power.mbx ≠ none ∨ (field n 8 8 = 0x21 ∧ v.getLsbD 7 = false ∧ compute) ∨ 8 < field n 16 4
      (v.getLsbD 20 = false → exec (.pmbMailboxTransaction v) s = .next s) ∧
      (v.getLsbD 20 = true → refused → exec (.pmbMailboxTransaction v) s = .next (s.sticky Reg.PMB_STATUS 6)) ∧
      (v.getLsbD 20 = true → ¬ refused → Gives (exec (.pmbMailboxTransaction v) s) fun t => t.power.mbx = some n ∧
        t.bit Reg.PMB_STATUS 2 = true ∧ SameMem s t)) ∧
    (∀ (ack pec : Bool) (data : List (BitVec 8)), (s.power.mbx = none → exec (.pmbMailboxDone ack pec data) s = .next s) ∧
      ∀ v, s.power.mbx = some v → Gives (exec (.pmbMailboxDone ack pec data) s) fun t => t.power.mbx = none ∧
        t.bit Reg.PMB_STATUS 2 = false ∧ t.bit Reg.PMB_STATUS 3 = true ∧ (ack = false → t.bit Reg.PMB_STATUS 4 = true) ∧ SameMem s t ∧
        (v.testBit 7 = true → ack = true → data.length ≤ 8 → t.fld Reg.PMB_STATUS 8 4 = data.length ∧
          ∀ i, i < data.length → t.fld (Reg.PMB_MBX_D0 + 4 * (i / 4)) (8 * (i % 4)) 8 = (data.getD i 0).toNat)) ∧
    (∀ (n : Fin 30) (x : BitVec 16) (ok : Bool),
      (s.dies = 1 → 12 ≤ n.val → n.val < 24 → exec (.sensorConversion n x ok) s = .next s) ∧
      (s.dies = 2 ∨ n.val < 12 ∨ 24 ≤ n.val → Gives (exec (.sensorConversion n x ok) s) fun t => SameMem s t ∧ t.cores = s.cores ∧
        t.regN (Reg.PWR_TEMP n.val) = x.toNat % 4096 +
          (if ok = true ∧ -320 ≤ x.toInt ∧ x.toInt ≤ 1200 then 4096 else 0) ∧
        (n.val < 24 → (s.throt ≤ t.clusterTemp (n.val / 3) → t.bit (Reg.CLU_THERMST (n.val / 3)) 0 = true) ∧
          (t.clusterTemp (n.val / 3) < s.throt - 40 → t.bit (Reg.CLU_THERMST (n.val / 3)) 0 = false)))) ∧
    (s.power.emergency = none → exec .thermalEmergencyExpiry s = .next s) ∧
    (s.power.emergency ≠ none → Gives (exec .thermalEmergencyExpiry s) fun t => t.weaveState = 6) ∧
    (∀ p : BitVec 16,
      let zero := p.toNat = 0 ∧ 30 * s.fanDuty.2 ≤ 100 * s.fanDuty.1
      Gives (exec (.fanTachCount p) s) fun t => t.regN Reg.PWR_TACH = p.toNat ∧ SameMem s t ∧
        (zero → t.power.fanZero = s.power.fanZero + 1 ∧ (s.power.fanZero = 1 → t.bit Reg.PWR_FAN 9 = true)) ∧
        (¬ zero → t.power.fanZero = 0)) ∧
    ∀ u : Fin 97,
      let may := s.power.queue.find? (fun v => wakeClass v == wakeClass u.val) = some u.val ∧
        (u.val < 8 ∨ 80 ≤ u.val ∨ (u.val - 8) / 9 ∈ s.power.awake)
      (may → Gives (exec (.wakeStart u) s) fun t => t.power.waking = u.val :: s.power.waking ∧
        t.power.queue = s.power.queue.erase u.val ∧ t.power.awake = s.power.awake ∧ OnlyRegs { s with power := t.power } t
          (fun a => a = Reg.PWR_STATUS)) ∧
      (¬ may → exec (.wakeStart u) s = .next s) ∧
      (u.val ∈ s.power.waking → Gives (exec (.wakeComplete u) s) fun t => t = { s with power := t.power } ∧
        t.power.awake = u.val :: s.power.awake ∧ t.power.waking = s.power.waking.erase u.val) ∧
      (u.val ∉ s.power.waking → exec (.wakeComplete u) s = .next s)

/-- No reset in progress: a source at level 0 to 2 begins the stretch, records its cause alone, counts (level 0 clears the
count), empties the cores, the weave, the jobs and the core windows; level 0 also clears DRAM, 0 and 1 leave SERVICE,
2 keeps DRAM, its controller, the dictionary and the host interfaces. Power-on and reference loss are level 0. The
reset pin and the thermal trip take the fused map's L0 or L1. JTAG, PCIe, both watchdogs at their timeout, dict and
secfail requests: in SERVICE only an interrupt bit; in START the map's level, its home block's L3 reset, or a record.
A reset in progress of the same or a stronger level only records its source. RST_CTRL, RST_BLK and RST_CORE act for
the steward and JTAG alone, on accepted targets, else rej is set. A kick of 0x4B49 clears a watchdog's count, no other
value does. A cluster's or die's PLL that loses lock marks it lost, the I/O die's resets the part. PERST held low
takes the link down. -/
def Obligations.ResetSources : Prop :=
  ∀ s : State,
    let svc := s.bit Reg.RST_REGIME 0
    let taken := fun (src level : Nat) (clk : Bool) (t : State) =>
      t.regN Reg.RST_CAUSE = src + 16 * level + (if clk then 128 else 0) ∧ t.regN Reg.RST_SRCSEEN = 2 ^ src ∧ t.rst.phase = .stretch ∧
      t.regN Reg.RST_COUNT = (if level = 0 then 0 else min (s.fld Reg.RST_COUNT 0 16 + 1) 0xFFFF) ∧ t.bit Reg.RST_STATUS 1 = false ∧
      t.cores = [] ∧ t.weave = WeaveSt.init ∧ t.jobs = JobsSt.init ∧ (level = 2 ∨ s.dram.cache = [] → ∀ a, 0x1000000000 ≤ a → a < 0x1090000000 → t.byte a = 0) ∧
      (level ≤ 1 → t.bit Reg.RST_REGIME 0 = false) ∧ (level = 0 → ∀ a, a < 2 ^ 36 → t.byte a = 0) ∧
      (level = 2 → (∀ a, a < 2 ^ 36 → t.byte a = s.byte a) ∧ t.dram.chans = s.dram.chans ∧ t.dict = s.dict ∧ t.host = s.host)
    let held := fun (x : Nat) (t : State) => t.rst.l3.contains x = true ∧ t.bit Reg.RST_STATUS 1 = true ∧ t.rst.phase = s.rst.phase ∧
      (x < 128 → t.bit (Reg.RST_BLK (x / 32)) (x % 32) = true)
    let raised := fun (o : Host.Outcome State Fault Refusal) (u : State) (src : Nat) =>
      let e := s.mapEntry src
      (svc = true → o = .next (u.sticky Reg.RST_IRQ_STATUS src)) ∧
      (svc = false → (e ≤ 2 → Gives o (taken src e false)) ∧
        (e = 7 → o = .next ((u.sticky Reg.RST_SRCSEEN src).sticky Reg.RST_IRQ_STATUS src)) ∧
        ((4 ≤ e ∧ e < 7) ∨ (e = 3 ∧ homeBlock src = none) → Gives o (taken src 1 false)) ∧
        ∀ b, e = 3 → homeBlock src = some b → Gives o fun t => held b t ∧ SameMem s t ∧ t.cores = s.cores)
    let hard := fun (src : Nat) => if s.mapEntry src = 0 then 0 else 1
    let rej := s.sticky Reg.RST_STATUS 0
    (s.rst.phase = .none →
      Gives (exec .powerOnReset s) (taken 1 0 false) ∧ Gives (exec .referenceClockLoss s) (taken 1 0 true) ∧
      Gives (exec (.pllLockLoss .io) s) (taken 1 0 true) ∧
      Gives (exec .sysResetNLow s) (fun t => taken 2 (hard 2) false t ∧ t.rst.pinLow = true) ∧
      Gives (exec .thermalTrip s) (fun t => taken 3 (hard 3) false t ∧ t.rst.tripped = true) ∧
      raised (exec .jtagReset s) s 7 ∧ raised (exec (.pcieHotReset false) s) s 8 ∧ raised (exec .dictResetRequest s) s 6 ∧
      raised (exec .secfailRequest s) s 9 ∧
      Gives (exec (.pcieHotReset true) s) (fun t => t.rst.perstLow = true ∧ t.regN Reg.PCIE_STATUS = 0) ∧
      (1000 * s.fld Reg.RST_SWDT 0 16 ≤ s.rst.swCount →
        raised (exec .stewardWatchdogExpiry s) { s with rst := { s.rst with swCount := 0 } } 4) ∧
      (s.bit Reg.RST_AWDT 16 = true → 1000 * s.fld Reg.RST_AWDT 0 16 ≤ s.rst.awCount →
        raised (exec .appWatchdogExpiry s) { s with rst := { s.rst with awCount := 0 } } 5) ∧
      ∀ (v : Word) (m : BitVec 8), rstMaster m.toNat = true → v.getLsbD 8 = true → v.toNat % 4 < 3 →
        Gives (exec (.softwareReset v m) s) (taken 10 (v.toNat % 4) false)) ∧
    (s.rst.phase ≠ .none → s.rstLevel = 0 → exec .powerOnReset s = .next (s.sticky Reg.RST_SRCSEEN 1) ∧
      exec .referenceClockLoss s = .next (s.sticky Reg.RST_SRCSEEN 1)) ∧
    (s.rst.swCount < 1000 * s.fld Reg.RST_SWDT 0 16 → exec .stewardWatchdogExpiry s = .next s) ∧
    (s.bit Reg.RST_AWDT 16 = false ∨ s.rst.awCount < 1000 * s.fld Reg.RST_AWDT 0 16 → exec .appWatchdogExpiry s = .next s) ∧
    (∀ v : Word, (v.toNat % 65536 ≠ 0x4B49 → ∀ app, exec (.watchdogKick app v) s = .next s) ∧ (v.toNat % 65536 = 0x4B49 →
      exec (.watchdogKick false v) s = .next { s with rst := { s.rst with swCount := 0 } } ∧
      exec (.watchdogKick true v) s = .next { s with rst := { s.rst with awCount := 0 } })) ∧
    (∀ (v : Word) (m : BitVec 8),
      (rstMaster m.toNat = false → exec (.softwareReset v m) s = .next rej ∧ exec (.coreReset v m) s = .next rej ∧
        ∀ n, exec (.l3BlockReset n v m) s = .next rej) ∧
      (rstMaster m.toNat = true →
        (v.getLsbD 8 = false → exec (.softwareReset v m) s = .next s ∧ exec (.coreReset v m) s = .next s) ∧
        (v.getLsbD 8 = true → (v.toNat % 4 = 3 → exec (.softwareReset v m) s = .next rej) ∧
          (let p := v.toNat % 128
           let can := s.hasCore p && s.coreStopped p
           (can = false → exec (.coreReset v m) s = .next rej) ∧
           (can = true → Gives (exec (.coreReset v m) s) fun t => held (128 + p) t ∧ t.coreState p = 0))) ∧
        ∀ (n : Fin 4) (i : Nat), i < 32 → v.toNat = 2 ^ i → let x := 32 * n.val + i
          (s.l3Accepted x = true → Gives (exec (.l3BlockReset n v m) s) (held x)) ∧
          (s.l3Accepted x = false → exec (.l3BlockReset n v m) s = .next rej))) ∧
    (∀ g : Fin 8, (g.val < s.clusters → Gives (exec (.pllLockLoss (.cluster g)) s) fun t => t.bit Reg.CLK_IRQ_STATUS g.val = true ∧
        t.bit Reg.CLK_STATUS (8 + g.val) = false ∧ t.bit Reg.WV_FAULTSET (8 + g.val) = true ∧ SameMem s t ∧ t.cores = s.cores) ∧
      (s.clusters ≤ g.val → exec (.pllLockLoss (.cluster g)) s = .next s)) ∧
    ∀ d : Fin 2, (d.val < s.dies → Gives (exec (.pllLockLoss (.die d)) s) fun t => t.bit Reg.CLK_IRQ_STATUS (8 + d.val) = true ∧
        t.bit Reg.CLK_STATUS (6 + d.val) = false ∧ t.bit Reg.WV_FAULTSET (16 + d.val) = true ∧ SameMem s t ∧ t.cores = s.cores) ∧
      (s.dies ≤ d.val → exec (.pllLockLoss (.die d)) s = .next s)

/-- RESET_STRETCH_END: held while the pin is low; else an L2 reset ends, and the others go on to their release, an L1 one
sampling GOLDEN_N. The pin's release does the same for a held reset; a comparator's release clears the trip.
L3_RESET_END releases a held target and changes nothing for another. RESET_RELEASE outside the release phase or in
test mode does nothing; after L0 it records the straps and stays in test mode if strapped; after L1 the part leaves
reset with its PLLs locked, the steward watchdog cleared and the whole window mapped, waiting for the host if PCIe is
first, failed if there is no source. PUSH_DOORBELL from another master than PCIe, or outside the PCIe source, is
rejected; a good manifest is taken, a bad one fails the source; the expected block counts up, a bad one fails, another
index does nothing. BOOT_SOURCE_TIMEOUT after the last source ends in failure; BOOT_RETRY_WAIT then asserts secfail. -/
def Obligations.ResetEndsAndBoot : Prop :=
  ∀ s : State,
    let goesOn := fun (o : Host.Outcome State Fault Refusal) (golden : Bool) =>
      (s.rstLevel = 2 → Gives o fun t => t.rst.phase = .none ∧ t.fld Reg.RAS_REPAIR 0 12 = s.dram.applied.length % 4096) ∧
      (s.rstLevel ≠ 2 → Gives o fun t => t.rst.phase = .release ∧ SameMem s t ∧ t.cores = s.cores ∧
        t.bit Reg.RST_STRAP 4 = (if s.rstLevel = 1 then golden else s.bit Reg.RST_STRAP 4))
    (∀ golden : Bool,
      (s.rst.phase ≠ .stretch ∨ s.rst.tripped = true → exec (.resetStretchEnd golden) s = .next s) ∧
      (s.rst.phase = .stretch → s.rst.tripped = false →
        (s.rst.pinLow = true → exec (.resetStretchEnd golden) s = .next { s with rst := { s.rst with phase := .held } }) ∧
        (s.rst.pinLow = false → goesOn (exec (.resetStretchEnd golden) s) golden)) ∧
      (s.rst.phase ≠ .held → exec (.sysResetNRelease golden) s = .next { s with rst := { s.rst with pinLow := false } }) ∧
      (s.rst.phase = .held → goesOn (exec (.sysResetNRelease golden) s) golden)) ∧
    exec .thermalTripRelease s = .next { s with rst := { s.rst with tripped := false } } ∧
    (∀ x : Fin 200, let left := s.rst.l3.erase x.val
      (s.rst.l3.contains x.val = false → exec (.l3ResetEnd x) s = .next s) ∧
      (s.rst.l3.contains x.val = true → Gives (exec (.l3ResetEnd x) s) fun t => t.rst.l3 = left ∧ t.rst.phase = s.rst.phase ∧
        t.bit Reg.RST_STATUS 1 = !left.isEmpty ∧ (x.val < 128 → t.bit (Reg.RST_BLK (x.val / 32)) (x.val % 32) = false))) ∧
    (∀ (st : Straps) (m : BootMedia),
      (s.rst.phase ≠ .release ∨ s.bit Reg.RST_REGIME 2 = true → exec (.resetRelease st m) s = .next s) ∧
      (s.rst.phase = .release → s.bit Reg.RST_REGIME 2 = false →
        (s.rstLevel = 0 → st.test = true → Gives (exec (.resetRelease st m) s) fun t => t.rst.phase = .release ∧ t.bit Reg.RST_REGIME 2 = true ∧
          t.regN Reg.RST_STRAP = st.bootsel.toNat + 4 * st.clkmode.toNat + (if st.golden then 16 else 0) + 32 ∧ SameMem s t) ∧
        (s.rstLevel = 1 → Gives (exec (.resetRelease st m) s) fun t => t.rst.phase = .none ∧ t.rst.swCount = 0 ∧
          t.regN Reg.CLK_STATUS = s.allLocked ∧ t.fld Reg.SYS_SC_WINDOW 0 5 = 16 ∧
          (s.bootOrder = [] → t.boot.run = some { sources := [], tried := 0, manifest := [], blocks := 0, failed := true }) ∧
          ∀ more, s.bootOrder = 4 :: more → s.bit Reg.RST_STRAP 4 = true → t.regN Reg.SEC_PUSHSTAT = 1 ∧
            t.boot.run = some { sources := 4 :: more, tried := 0, manifest := [], blocks := 0, failed := false }))) ∧
    (s.boot.run = none → exec .bootRetryWait s = .next s ∧ (∀ m, exec (.bootSourceTimeout m) s = .next s) ∧
      ∀ v m, exec (.pushDoorbell v m) s = .next (s.sticky Reg.SEC_STATUS 2)) ∧
    ∀ b, s.boot.run = some b →
      let serves := s.bit Reg.SEC_PUSHSTAT 0
      let gone := fun (t : State) => t.fld Reg.SEC_PUSHSTAT 0 3 = 4 ∧ SameMem s t ∧
        ∃ r, t.boot.run = some r ∧ r.sources = b.sources.drop 1 ∧ r.tried = b.tried + 1 ∧ r.manifest = []
      (∀ (v : Word) (m : BitVec 8), let i := v.toNat % 65536
        (m.toNat ≠ 0x60 ∨ serves = false → exec (.pushDoorbell v m) s = .next (s.sticky Reg.SEC_STATUS 2)) ∧
        (m.toNat = 0x60 → serves = true →
          (i = 0xFFFF → b.manifest = [] →
            let man := s.bytes handoverBase (352 + 48 * min (s.le (handoverBase + 20) 4) 1024)
            (s.manifestOk man = true → manType man = 1 → exec (.pushDoorbell v m) s =
              .next { s with boot := { s.boot with run := some { b with manifest := man } } }) ∧
            (s.manifestOk man = false ∨ manType man ≠ 1 → Gives (exec (.pushDoorbell v m) s) gone)) ∧
          (i ≠ 0xFFFF → b.manifest = [] ∨ i ≠ b.blocks → exec (.pushDoorbell v m) s = .next s) ∧
          (i ≠ 0xFFFF → b.manifest ≠ [] → i = b.blocks →
            let good := sha384 (blockOf b.manifest (s.bytes windowBase (manSize b.manifest)) i) == manHash b.manifest i
            (good = false → Gives (exec (.pushDoorbell v m) s) gone) ∧
            (good = true → i + 1 ≠ manBlocks b.manifest → Gives (exec (.pushDoorbell v m) s) fun t =>
              t.boot.run = some { b with blocks := i + 1 } ∧ t.fld Reg.SEC_PUSHSTAT 16 12 = (i + 1) % 4096 ∧ SameMem s t)))) ∧
      (b.failed = true → exec .bootRetryWait s = exec .secfailRequest { s with boot := { s.boot with run := none } } ∧
        ∀ m, exec (.bootSourceTimeout m) s = .next s) ∧
      (b.failed = false → exec .bootRetryWait s = .next s ∧
        ∀ m, serves = true → b.sources.drop 1 = [] → Gives (exec (.bootSourceTimeout m) s) fun t => t.fld Reg.SEC_PUSHSTAT 0 3 = 0 ∧
          t.boot.run = some { sources := [], tried := b.tried + 1, manifest := [], blocks := 0, failed := true })

/-- MEASUREMENT_EXTEND by the steward of register 2 to 7 hashes it with SEC_EXTDATA into it; other masters and registers 0
and 1 set rej. KEY_DERIVE by the steward at no more than its own security version gives the derived key; else it is
denied. ATTEST starts a report unless one is in progress; ATTEST_DONE writes its body and a signature at the report
address. HANDOVER_REQUEST outside a handover and LOADING ends every transfer, writes the record and pauses; else it is
refused. HANDOVER_RESTART into a good half extends register 7 and runs there; into a bad one ends. HANDOVER_CONFIRM
completes it and makes the pending slot active. HANDOVER_TIMEOUT goes back to the old half. REGIME_WRITE by the
steward or JTAG enters SERVICE, not in recovery or test mode, confirming a pending boot, or leaves it. FUSE_PROGRAM of
an allowed bit with VPP in range starts; FUSE_PROGRAM_DONE sets all three copies. -/
def Obligations.Security : Prop :=
  ∀ s : State,
    let rej := s.sticky Reg.SEC_STATUS 2
    let meas := fun (t : State) (i : Nat) => t.regBytes (Reg.SEC_MEAS (16 * i)) 48
    (∀ (v : Word) (m : BitVec 8), let i := v.toNat % 8
      (m.toNat ≠ 0x61 → exec (.measurementExtend v m) s = .next rej ∧ exec (.attest v m) s = .next rej ∧
        exec (.keyDerive v m) s = .next ((s.sticky Reg.SEC_STATUS 3).sticky Reg.SEC_STATUS 2)) ∧
      (m.toNat = 0x61 →
        (v.getLsbD 8 = false → exec (.measurementExtend v m) s = .next s) ∧
        (v.getLsbD 8 = true → i < 2 → exec (.measurementExtend v m) s = .next rej) ∧
        (v.getLsbD 8 = true → 2 ≤ i → Gives (exec (.measurementExtend v m) s) fun t =>
          meas t i = sha384 (meas s i ++ s.regBytes (Reg.SEC_EXTDATA 0) 48) ∧
          OnlyRegs s t (fun a => Reg.SEC_MEAS (16 * i) ≤ a ∧ a < Reg.SEC_MEAS (16 * i) + 48)) ∧
        (let svn := field v.toNat 16 16
         (s.fld Reg.SEC_SVN 0 16 < svn → exec (.keyDerive v m) s = .next (s.sticky Reg.SEC_STATUS 3)) ∧
         (svn ≤ s.fld Reg.SEC_SVN 0 16 → Gives (exec (.keyDerive v m) s) fun t =>
           t.regBytes (Reg.SEC_KEY 0) 48 = s.derive ([v.toNat % 256, field v.toNat 8 8] ++ leBytes 2 svn) 48 ∧
           OnlyRegs s t (fun a => Reg.SEC_KEY 0 ≤ a ∧ a < Reg.SEC_KEY 0 + 48))) ∧
        (v.getLsbD 0 = false → exec (.attest v m) s = .next s) ∧
        (v.getLsbD 0 = true → (s.boot.attesting = true → exec (.attest v m) s = .next rej) ∧
          (s.boot.attesting = false → Gives (exec (.attest v m) s) fun t => t.boot.attesting = true ∧ t.bit Reg.SEC_STATUS 0 = true ∧
            SameMem s t)))) ∧
    (s.boot.attesting = false → exec .attestDone s = .next s) ∧
    (s.boot.attesting = true → Gives (exec .attestDone s) fun t => t.boot.attesting = false ∧ t.bit Reg.SEC_STATUS 0 = false ∧
      t.bit Reg.SEC_STATUS 1 = true ∧ ∃ sig : List Nat, sig.length = 96 ∧ t.boot.report = some (s.attBody ++ sig) ∧
        let a := s.reg64 Reg.SEC_ATT_ADDR_LO % 2 ^ 40
        (s.place a 640 = .err → SameMem s t) ∧
        ∀ h, s.place a 640 = .dram h → SameMemBut s t h (s.attBody ++ sig).length ∧
          ∀ j, j < (s.attBody ++ sig).length → t.byte (h + j) = (s.attBody ++ sig).getD j 0 % 256) ∧
    (let busy := s.handState = 1 ∨ s.handState = 2 ∨ s.weaveState = 1
     (busy → exec .handoverRequest s = .next (s.sticky Reg.SEC_HANDOVER 4)) ∧
     (¬ busy → Gives (exec .handoverRequest s) fun t => t.handState = 1 ∧ t.bit Reg.SEC_HANDOVER 0 = true ∧ t.bit Reg.STW_STATUS 3 = true ∧
        t.le handoverBase 4 = 0x444E484B ∧ SameMemBut s t handoverBase 128 ∧ t.cores = s.cores ∧
        ∀ k q, k < 9 → t.session k = some q → q.xfers = [])) ∧
    (let h := 1 - s.half
     (s.handState ≠ 1 → exec .handoverRestart s = .next s) ∧
     (s.handState = 1 → s.halfOk h = true → Gives (exec .handoverRestart s) fun t => t.handState = 2 ∧ t.half = h ∧ t.boot.handed = true ∧
        t.bit Reg.STW_STATUS 3 = true ∧ t.regN Reg.SYS_FWVER = manVersion (s.halfManifest h) % 2 ^ 32 ∧
        meas t 7 = sha384 (meas s 7 ++ manDigest (s.halfManifest h)) ∧ SameMem s t) ∧
     (s.handState = 1 → s.halfOk h = false → Gives (exec .handoverRestart s) fun t => t.handState = 0 ∧ t.half = s.half ∧
        t.bit Reg.SEC_HANDOVER 4 = true ∧ t.bit Reg.SEC_HANDOVER 0 = false ∧ t.bit Reg.STW_STATUS 3 = false ∧ SameMem s t) ∧
     (s.handState ≠ 2 → exec .handoverConfirm s = .next s ∧ exec .handoverTimeout s = .next s) ∧
     (s.handState = 2 → Gives (exec .handoverConfirm s) (fun t => t.handState = 0 ∧ t.half = s.half ∧ t.bit Reg.STW_STATUS 3 = false ∧
          SameMem s t ∧ t.boot.pending = none ∧ ∀ p, s.boot.pending = some p → t.boot.active = p) ∧
        (s.halfOk h = false → exec .handoverTimeout s = .next s) ∧
        (s.halfOk h = true → Gives (exec .handoverTimeout s) fun t => t.handState = 3 ∧ t.half = h ∧ t.bit Reg.STW_STATUS 3 = false ∧
          SameMem s t))) ∧
    (∀ (v : Word) (m : BitVec 8), let no := s.bit Reg.RST_REGIME 1 = true ∨ s.bit Reg.RST_REGIME 2 = true
      (rstMaster m.toNat = false ∨ (v.getLsbD 0 = true ∧ no) → exec (.regimeWrite v m) s = .next (s.sticky Reg.RST_STATUS 0)) ∧
      (rstMaster m.toNat = true → (v.getLsbD 0 = false → exec (.regimeWrite v m) s = .next (s.putBit Reg.RST_REGIME 0 false)) ∧
        (v.getLsbD 0 = true → ¬ no → Gives (exec (.regimeWrite v m) s) fun t => t.bit Reg.RST_REGIME 0 = true ∧ SameMem s t ∧
          (s.bit Reg.RST_REGIME 0 = false → s.bit Reg.SEC_BOOTINFO 12 = true → t.boot.pending = none ∧
            ∀ p, s.boot.pending = some p → t.boot.active = p) ∧
          (s.bit Reg.RST_REGIME 0 = true ∨ s.bit Reg.SEC_BOOTINFO 12 = false → t.boot = s.boot)))) ∧
    (∀ (v : Word) (m : BitVec 8) (vpp : Bool), let b := v.toNat % 8192
      let bad := rstMaster m.toNat = false ∨ s.bit Reg.FUSE_LOCK 0 = true ∨ s.fuseField b = false ∨ s.boot.fuseBusy.isSome = true
      (v.getLsbD 31 = false → exec (.fuseProgram v m vpp) s = .next s) ∧
      (v.getLsbD 31 = true → (bad → exec (.fuseProgram v m vpp) s = .next (s.sticky Reg.FUSE_PROG_STAT 1)) ∧
        (¬ bad → vpp = false → exec (.fuseProgram v m vpp) s = .next (s.sticky Reg.FUSE_PROG_STAT 2)) ∧
        (¬ bad → vpp = true → exec (.fuseProgram v m vpp) s =
          .next (({ s with boot := { s.boot with fuseBusy := some b } } : State).putBit Reg.FUSE_PROG_STAT 0 true)))) ∧
    (s.boot.fuseBusy = none → exec .fuseProgramDone s = .next s) ∧
    ∀ b, s.boot.fuseBusy = some b → Gives (exec .fuseProgramDone s) fun t => t.boot.fuseBusy = none ∧
      t.bit Reg.FUSE_PROG_STAT 0 = false ∧ SameMem s t ∧
      ∀ x, Tbl.get (fun _ => 0) t.boot.fuses x = if x = b then 3 else Tbl.get (fun _ => 0) s.boot.fuses x

/-- A message on a closed or paused network session is dropped; a malformed one is answered with ABORT 0x0504_0001; a
request already answered gets the held response. An unknown index, so every one from 0xF000 (R477), gives 0x0602_0000,
an unknown subindex 0x0609_0011, reading a write-only object 0x0601_0001, writing a read-only one 0x0601_0002, a wrong
length 0x0607_0010, a value out of range 0x0609_0030. A value the steward holds is read whole up to 1,024 bytes and in
segments beyond, with 4 transfers at most, and written. Segments follow each other, repeat, end a transfer, or break
it off. ABORT ends the request's transfers. SUBSCRIBE and EVENT_ACK change the subscription, PING echoes its argument.
Unacknowledged events are repeated up to 30 times. A timed-out transfer or session ends. A handshake opens a free
session or is refused. -/
def Obligations.DictionaryMessages : Prop :=
  (∀ index sub, 0xF000 ≤ index → lookupObj index sub = .noIndex) ∧
  (∀ (s : State) (k : Fin 9) (msg : List (BitVec 8)),
    let bs := msg.map (fun b => b.toNat)
    let m := readMsg bs
    let n := k.val
    let off := (s.session n).isNone = true ∨ s.bit Reg.STW_STATUS 3 = true
    let there := n = 8 → s.bit Reg.STW_STATUS 0 = true ∧ bs = s.mailboxMsg
    let cmds : List (Nat × Instr) := [(1, .odRead k msg), (2, .odReadSeg k msg), (3, .odWrite k msg), (4, .odWriteSeg k msg), (5, .odAbort k msg),
      (6, .odSubscribe k msg), (8, .odEventAck k msg), (9, .odPing k msg)]
    let answers := fun (r : List Nat) (t : State) => SameMem s t ∧ (n < 8 → t.dict.sent.head? = some (n, r)) ∧
      (n = 8 → t.bit Reg.STW_STATUS 0 = false ∧ (s.bit Reg.STW_STATUS 1 = false → s.host.rsp = [] → (∀ b, b ∈ r → b < 256) → r.length ≤ 1040 →
        t.bit Reg.STW_STATUS 1 = true ∧ t.regBytes (Reg.STW_RSP 0) r.length = r))
    (off → ∀ c, c ∈ cmds → (n < 8 → exec c.2 s = .next { s with dict := { s.dict with sent := [] }, reply := .dropped }) ∧
      (n = 8 → exec c.2 s = .next s)) ∧
    (¬ off → there → msgOk bs = false → ∀ c, c ∈ cmds → Gives (exec c.2 s) fun t => answers (m.abort 0x05040001) t ∧ t.reply = .abort 0x05040001) ∧
    (¬ off → there → msgOk bs = true → ∀ c, c ∈ cmds → m.service = c.1 →
      let out := exec c.2 s
      let fresh := s.heldResponse n m.req m.service = none
      let fails := fun (code : Nat) => Gives out fun t => answers (m.abort code) t ∧ t.reply = .abort code
      (∀ r, m.service ∈ [1, 3, 6, 9] → s.heldResponse n m.req m.service = some r → Gives out (answers r)) ∧
      (m.service = 1 → fresh → (lookupObj m.index m.sub = .noIndex → fails 0x06020000) ∧ (lookupObj m.index m.sub = .noSub → fails 0x06090011) ∧
        ∀ o, lookupObj m.index m.sub = .found o → (o.acc = .wo → fails 0x06010001) ∧
          ∀ d, o.acc ≠ .wo → o.home = .value d → let v := (s.objVal m.index m.sub).getD d
            (v.length ≤ 1024 → Gives out (answers (m.success 1 0 v))) ∧
            (1024 < v.length → 4 ≤ (s.xfersOf n).length → fails 0x05040005) ∧
            (1024 < v.length → (s.xfersOf n).length < 4 → Gives out fun t => answers (m.success 2 v.length (v.take 1024)) t ∧
              ∃ x, t.xferOf n m.req false = some x ∧ x.data = v ∧ x.total = v.length)) ∧
      (m.service = 2 → (∀ x, s.xferOf n m.req false = some x →
          (m.arg = 0 ∨ x.total ≤ 1024 * m.arg → fails 0x05030000) ∧
          (m.arg ≠ 0 → 1024 * m.arg < x.total → x.total ≤ 1024 * (m.arg + 1) → Gives out fun t =>
            answers (m.success 1 m.arg (segOf x.data m.arg)) t ∧ t.xferOf n m.req false = none) ∧
          (m.arg ≠ 0 → 1024 * (m.arg + 1) < x.total → Gives out fun t => answers (m.success 0 m.arg (segOf x.data m.arg)) t ∧
            t.xferOf n m.req false = some x)) ∧
        (s.xferOf n m.req false = none → s.heldResponse n m.req 2 = none → fails 0x05040000)) ∧
      (m.service = 3 → fresh → m.flags % 2 = 1 → (lookupObj m.index m.sub = .noIndex → fails 0x06020000) ∧
        (lookupObj m.index m.sub = .noSub → fails 0x06090011) ∧
        ∀ o, lookupObj m.index m.sub = .found o → let ro := o.acc = .ro ∨ o.acc = .const
          (ro → fails 0x06010002) ∧ (¬ ro → badLength o m.data.length = true → fails 0x06070010) ∧
          (¬ ro → badLength o m.data.length = false →
            (outOfRange m.index o (leVal m.data) = true → fails 0x06090030) ∧
            ∀ d, outOfRange m.index o (leVal m.data) = false → o.home = .value d → Gives out fun t => answers (m.success 0 0 []) t ∧
              t.reply = .done ∧ t.objVal m.index m.sub = some m.data)) ∧
      (m.service = 3 → fresh → m.flags % 2 = 0 → (s.segmentedCode n m ≠ 0 → fails (s.segmentedCode n m)) ∧
        (s.segmentedCode n m = 0 → streamed m.index = false → Gives out fun t => answers (m.success 0 0 []) t ∧
          ∃ x, t.xferOf n m.req true = some x ∧ x.data = m.data ∧ x.total = m.arg ∧ x.seg = 0)) ∧
      (m.service = 4 → (s.xferOf n m.req true = none → fresh → fails 0x05040000) ∧
        ∀ x, s.xferOf n m.req true = some x → (m.arg = x.seg → Gives out (answers (m.success 0 m.arg []))) ∧
          (m.arg ≠ x.seg → m.arg ≠ x.seg + 1 → fails 0x05030000) ∧
          (m.arg = x.seg + 1 → m.flags % 2 = 1 → 1024 * m.arg + m.data.length ≠ x.total → fails 0x05040002) ∧
          (m.arg = x.seg + 1 → m.flags % 2 = 0 → m.data.length ≠ 1024 ∨ x.total < 1024 * (m.arg + 1) → fails 0x05040002) ∧
          (m.arg = x.seg + 1 → m.flags % 2 = 0 → m.data.length = 1024 → 1024 * (m.arg + 1) ≤ x.total → streamed x.index = false →
            Gives out fun t => answers (m.success 0 m.arg []) t ∧
              t.xferOf n m.req true = some { x with seg := m.arg, data := x.data ++ m.data })) ∧
      (m.service = 5 → Gives out fun t => SameMem s t ∧ t.reply = .done ∧ ∀ w, t.xferOf n m.req w = none) ∧
      (m.service = 6 → fresh → (m.data.length ≠ 1 → fails 0x06070010) ∧ ∀ c, m.data = [c] →
        (c = 0xFF → Gives out fun t => answers (m.success 0 0 []) t ∧ (t.session n).bind (fun q => q.sub) = none) ∧
        (c ≤ 3 → Gives out fun t => answers (m.success 0 0 []) t ∧ ∃ u, (t.session n).bind (fun q => q.sub) = some u ∧ u.cls = c) ∧
        (3 < c → c ≠ 0xFF → fails 0x06090030)) ∧
      (m.service = 8 → Gives out fun t => SameMem s t ∧ t.reply = .done ∧ ∀ u, s.hist = [] → (s.session n).bind (fun q => q.sub) = some u →
        ∃ z, (t.session n).bind (fun q => q.sub) = some z ∧ z.open_ = u.open_.filter (fun c => !notBefore c m.arg)) ∧
      (m.service = 9 → fresh → Gives out fun t => answers (m.success 0 m.arg []) t ∧ t.reply = .done))) ∧
  ∀ (s : State),
    (∀ (k : Fin 9), let none_ := (s.session k.val).bind (fun q => q.sub)
      ((∀ u, none_ = some u → u.open_ = []) → exec (.odEventRetransmit k) s = .next { s with dict := { s.dict with sent := [] } }) ∧
      (∀ u, none_ = some u → u.open_ ≠ [] → Gives (exec (.odEventRetransmit k) s) fun t => SameMem s t ∧
        (t.session k.val).bind (fun q => q.sub) = (if 30 ≤ u.repeats then none else some { u with repeats := u.repeats + 1 })) ∧
      ∀ req : BitVec 16, Gives (exec (.odTransferTimeout k req) s) fun t => SameMem s t ∧ t.regs = s.regs ∧ ∀ w, t.xferOf k.val req.toNat w = none) ∧
    (∀ k : Fin 8, Gives (exec (.sessionTimeout k) s) fun t => SameMem s t ∧ t.regs = s.regs ∧
      ∀ j, t.session j = if j = k.val then none else s.session j) ∧
    ∀ h : Handshake,
      (h.profile = false → Gives (exec (.dtlsHandshake h) s) fun t => t.reply = .dropped ∧ SameMem s t ∧ ∀ j, t.session j = s.session j) ∧
      ((∀ j, j < 8 → (s.session j).isSome = true) → Gives (exec (.dtlsHandshake h) s) fun t => t.reply = .dropped ∧ SameMem s t ∧
        ∀ j, t.session j = s.session j) ∧
      ∀ k, h.profile = true → h.chain = true → h.dates = true → h.root.map (fun b => b.toNat) ∈ s.anchors → k < 8 → s.session k = none →
        (∀ j, j < k → (s.session j).isSome = true) → Gives (exec (.dtlsHandshake h) s) fun t => t.reply = .done ∧ SameMem s t ∧
          ∀ j, t.session j = if j = k then some Session.init else s.session j

/-- STORE queues a record of every stored value, unless it is larger than a slot; RESTORE_DEFAULTS queues one without
values. STORE_WRITTEN writes the oldest under the next generation to the next two slots, which brings it into force,
or after an NVM error leaves the record in force as it was. OD_RESET of level 1 or 2 is remembered; its delay's end
raises source 6 in START and resets at that level in SERVICE. UPDATE_HANDOVER loads a good pending steward image into
the other half, THREADER_ACTIVATE measures the pending threader and takes its version, CLEAR_PENDING forgets the slot;
without the image they abort with 0x0800_0022, with a bad one with 0x0800_0025. NVM_WRITE of 1 to 64 words within a
256-byte page by the steward while none is in progress starts one; its end writes those words alone, or sets the error
bit; anything else is rejected. -/
def Obligations.StoredAndUpdates : Prop :=
  ∀ s : State,
    let rej := s.sticky Reg.NVM_STATUS 1
    (let r := makeRecord 0 (s.regN Reg.SYS_FWVER) s.time s.rwsValues
     Gives (exec .store s) fun t => SameMem s t ∧ (if r.length ≤ 65536 then
        t.dict.stores.getLast? = some { record := r, defaults := false } ∧ t.regs = s.regs ∧ t.dict.genInForce = s.dict.genInForce
      else t.dict.stores = s.dict.stores)) ∧
    Gives (exec .restoreDefaults s) (fun t => SameMem s t ∧ t.regs = s.regs ∧
      t.dict.stores.getLast? = some { record := makeRecord 0 (s.regN Reg.SYS_FWVER) s.time [], defaults := true }) ∧
    (s.dict.stores = [] → ∀ e, exec (.storeWritten e) s = .next s) ∧
    (∀ q more, s.dict.stores = q :: more →
      let gen := s.dict.genWritten + 1
      let r := regenRecord gen q.record
      let a := dictSlot ((s.dict.slot + 1) % 31)
      let b := dictSlot (((s.dict.slot + 1) % 31 + 1) % 31)
      Gives (exec (.storeWritten true) s) (fun t => t.dict.stores = more ∧ t.dict.genInForce = s.dict.genInForce ∧ SameMemBut s t a r.length) ∧
      (r.length ≤ 65536 → Gives (exec (.storeWritten false) s) fun t => t.dict.stores = more ∧ t.dict.genInForce = gen ∧
        t.dict.genWritten = gen ∧ (∀ j, j < r.length → t.byte (a + j) = r.getD j 0 % 256 ∧ t.byte (b + j) = r.getD j 0 % 256) ∧
        (∀ x, x < a ∨ a + r.length ≤ x → x < b ∨ b + r.length ≤ x → t.byte x = s.byte x) ∧
        t.regBytes (Reg.SEC_MEAS 96) 48 = sha384 (s.regBytes (Reg.SEC_MEAS 96) 48 ++ sha384 r))) ∧
    (∀ l : BitVec 8, (l = 1 ∨ l = 2 → exec (.odReset l) s = .next { s with rst := { s.rst with dictLevel := some l.toNat } }) ∧
      (l ≠ 1 → l ≠ 2 → exec (.odReset l) s = .next s)) ∧
    (s.rst.dictLevel = none → exec .odResetDelayExpiry s = .next s) ∧
    (∀ l, s.rst.dictLevel = some l → let u : State := { s with rst := { s.rst with dictLevel := none } }
      (s.bit Reg.RST_REGIME 0 = false → exec .odResetDelayExpiry s = exec .dictResetRequest u) ∧
      (s.bit Reg.RST_REGIME 0 = true → l = 1 ∨ l = 2 → s.rst.phase = .none → Gives (exec .odResetDelayExpiry s) fun t =>
        t.regN Reg.RST_CAUSE = 10 + 16 * l ∧ t.rst.phase = .stretch ∧ t.rst.dictLevel = none ∧ t.cores = [])) ∧
    (let none_ := fun (o : Host.Outcome State Fault Refusal) (code : Nat) => o = .next { s with reply := .abort code }
     (s.pendingImages = [] → none_ (exec .updateHandover s) 0x08000022) ∧
     (∀ im more, s.pendingImages = im :: more → s.handRefused = false →
       let good := s.imageOk im = true ∧ manType im.manifest = 1
       let h := 1 - s.half
       (¬ good → none_ (exec .updateHandover s) 0x08000025) ∧
       (good → Gives (exec .updateHandover s) fun t => t.reply = .done ∧ t.halfManifest h = im.manifest ∧ t.regs = s.regs ∧
         t.halfManifest s.half = s.halfManifest s.half ∧ SameMemBut s t (halfBase h) im.payload.length ∧
         ∀ j, j < im.payload.length → t.byte (halfBase h + j) = im.payload.getD j 0 % 256)) ∧
     (let thr := s.pendingImages.find? (fun im => manType im.manifest == 3)
      (thr = none → none_ (exec .threaderActivate s) 0x08000022) ∧
      ∀ im, thr = some im → (s.imageOk im = false → none_ (exec .threaderActivate s) 0x08000025) ∧
        (s.imageOk im = true → Gives (exec .threaderActivate s) fun t => t.reply = .done ∧ SameMem s t ∧
          t.regN Reg.SYS_THRVER = manVersion im.manifest % 2 ^ 32 ∧
          t.regBytes (Reg.SEC_MEAS 32) 48 = sha384 (s.regBytes (Reg.SEC_MEAS 32) 48 ++ manDigest im.manifest))) ∧
     Gives (exec .clearPending s) (fun t => t.boot.pending = none ∧ t.boot.tries = 0 ∧ t.boot.active = s.boot.active ∧ SameMem s t ∧
       t.regs = s.regs)) ∧
    (∀ (v : Word) (m : BitVec 8), let n := v.toNat % 128
      let off := s.regN Reg.NVM_WADDR
      let bad := n = 0 ∨ 64 < n ∨ 256 < off % 256 + 4 * n
      let busy := s.bit Reg.NVM_STATUS 0
      (m.toNat ≠ 0x61 ∨ busy = true → exec (.nvmWrite v m) s = .next rej) ∧
      (m.toNat = 0x61 → busy = false → (v.getLsbD 31 = false → exec (.nvmWrite v m) s = .next s) ∧
        (v.getLsbD 31 = true → bad → exec (.nvmWrite v m) s = .next rej) ∧
        (v.getLsbD 31 = true → ¬ bad → Gives (exec (.nvmWrite v m) s) fun t => t.bit Reg.NVM_STATUS 0 = true ∧ SameMem s t ∧
          t.host.nvm = some (off, (List.range n).map (fun i => s.regN (Reg.NVM_WBUF i)))))) ∧
    (s.host.nvm = none → ∀ e, exec (.nvmWriteDone e) s = .next s) ∧
    ∀ off ws, s.host.nvm = some (off, ws) → ∀ e, Gives (exec (.nvmWriteDone e) s) fun t => t.host.nvm = none ∧
      t.bit Reg.NVM_STATUS 0 = false ∧ t.regN Reg.NVM_WRITES = min (s.regN Reg.NVM_WRITES + 1) 0xFFFFFFFF ∧
      SameMemBut s t (nvmBase + off) (4 * ws.length) ∧ (e = true → t.bit Reg.NVM_STATUS 2 = true) ∧
      (e = false → ∀ i, i < ws.length → t.le (nvmBase + off + 4 * i) 4 = ws.getD i 0 % 2 ^ 32)

/-- MAILBOX_CLAIM of a free mailbox takes it and opens its session; the holder may release it, set GO while no request
waits, and acknowledge a response, upon which the next one moves in; others are rejected. RING_RP moves no further
than the write pointer. Only the steward releases application cores. H2A and A2H set doorbell bits. EOI, or unmasking
with a pending bit, of an asserted open vector sends its message and clears the bit. A host read of DRAM returns it, a
write stores it; both of an undecoded place are errors, a poisoned write is dropped, and with the link down nothing
happens. PERST released leaves the trained link, as PCIE_CFG limits it. GPIO_DIR, GPIO_SET and GPIO_CLR write their
registers, and GPIO_IN follows the pins. PPS goes high in the first millisecond of a second only. An MDIO frame starts
unless one runs, and its end gives the data. A frame that MNET takes counts as good, or as bad by length or FCS. -/
def Obligations.HostInterfaces : Prop :=
  ∀ s : State,
    let rej := s.sticky Reg.STW_STATUS 2
    (∀ m : BitVec 8, let h := s.holds m.toNat
      (s.bit Reg.STW_CLAIM 0 = false → Gives (exec (.mailboxClaim m) s) fun t => t.regN Reg.STW_CLAIM = 1 + 256 * holderOf m.toNat ∧
        t.session 8 = some Session.init ∧ SameMem s t) ∧
      (s.bit Reg.STW_CLAIM 0 = true → exec (.mailboxClaim m) s = .next (if h then s else rej)) ∧
      (h = false → exec (.mailboxRelease m) s = .next rej ∧ exec (.mailboxRequestGo m) s = .next rej ∧
        exec (.mailboxResponseAck m) s = .next rej) ∧
      (h = true → Gives (exec (.mailboxRelease m) s) (fun t => t.regN Reg.STW_CLAIM = 0 ∧ t.bit Reg.STW_STATUS 0 = false ∧
          t.bit Reg.STW_STATUS 1 = false ∧ t.session 8 = none ∧ t.host.rsp = [] ∧ SameMem s t) ∧
        exec (.mailboxRequestGo m) s = .next (if s.bit Reg.STW_STATUS 0 then rej else s.putBit Reg.STW_STATUS 0 true) ∧
        (s.host.rsp = [] → exec (.mailboxResponseAck m) s = .next (s.putBit Reg.STW_STATUS 1 false)) ∧
        ∀ r rest, s.host.rsp = r :: rest → r.length ≤ 1040 → (∀ b, b ∈ r → b < 256) → Gives (exec (.mailboxResponseAck m) s) fun t =>
          t.host.rsp = rest ∧ t.bit Reg.STW_STATUS 1 = true ∧ t.regBytes (Reg.STW_RSP 0) r.length = r ∧ SameMem s t)) ∧
    (∀ (r : BitVec 8) (v : Word), let k := r.toNat
      let ahead := fun (x : Nat) => (x + 2 ^ 32 - s.regN (Reg.RING_RP k)) % 2 ^ 32
      (64 ≤ k → exec (.ringRpWrite r v) s = .next s) ∧
      (k < 64 → exec (.ringRpWrite r v) s = .next (if ahead v.toNat ≤ ahead (s.regN (Reg.RING_WP k)) then s.setRegN (Reg.RING_RP k) v.toNat
        else s.sticky (Reg.RING_STAT k) 1))) ∧
    (∀ (v : Word) (m : BitVec 8), (m.toNat ≠ 0x61 → exec (.appCoreRelease v m) s = .next (s.sticky Reg.HCX_STAT 0)) ∧
      (m.toNat = 0x61 → exec (.appCoreRelease v m) s = .next (s.setRegN Reg.HCX_RELEASE (s.regN Reg.HCX_RELEASE ||| v.toNat % 256))) ∧
      exec (.h2aSet v) s = .next (s.setRegN Reg.PCIE_H2A (s.regN Reg.PCIE_H2A ||| v.toNat)) ∧
      exec (.a2hSet v) s = .next (s.setRegN Reg.PCIE_A2H (s.regN Reg.PCIE_A2H ||| v.toNat))) ∧
    (∀ (n : Fin 32), s.host.vectors = (List.range 32).filter s.vectorUp →
      let v := BitVec.ofNat 32 n.val
      let msg := (s.reg64 (Reg.PCIE_MSIX_ADDR_LO n.val), s.regN (Reg.PCIE_MSIX_DATA n.val))
      (s.vectorUp n.val = true → s.vectorOpen n.val = true → Gives (exec (.pcieEoi v) s) fun t => t.host.msi = [msg] ∧
        t.bit Reg.PCIE_PBA n.val = false ∧ SameMem s t) ∧
      (s.vectorUp n.val = false ∨ s.vectorOpen n.val = false → Gives (exec (.pcieEoi v) s) fun t => t.host.msi = [] ∧ SameMem s t) ∧
      Gives (exec (.msixUnmask n) s) (fun t => t.bit (Reg.PCIE_MSIX_CTRL n.val) 0 = false ∧ SameMem s t ∧
        (s.vectorUp n.val = true → s.bit Reg.PCIE_STATUS 9 = true → s.bit Reg.PCIE_PBA n.val = true → t.host.msi = [msg] ∧
          t.bit Reg.PCIE_PBA n.val = false) ∧
        (s.vectorUp n.val = false ∨ s.bit Reg.PCIE_STATUS 9 = false ∨ s.bit Reg.PCIE_PBA n.val = false → t.host.msi = []))) ∧
    (∀ (bar2 : Bool) (o : BitVec 34) (n : BitVec 13) (bs : List (BitVec 8)) (bad : Bool),
      let rd := exec (.pcieHostRead bar2 o n) s
      let wr := exec (.pcieHostWrite bar2 o bs bad) s
      let rp := (s.barPlace bar2 o.toNat n.toNat).2
      let wp := (s.barPlace bar2 o.toNat bs.length).2
      (s.barsOpen = false → rd = .next s ∧ wr = .next s) ∧
      (s.barsOpen = true →
        (rp = .err → Gives rd fun t => t.reply = .error ∧ t.bit Reg.PCIE_STAT 1 = true ∧
          t.regN Reg.PCIE_CACOUNT = min (s.regN Reg.PCIE_CACOUNT + 1) 0xFFFFFFFF ∧ SameMem s t) ∧
        (∀ h, rp = .dram h → s.chanDead h = false → rd = .next { s with reply := if s.badRange h n.toNat then Reply.poisoned else Reply.data (s.bytes h n.toNat) }) ∧
        (bad = true → wr = .next ({ (s.sticky Reg.PCIE_STAT 2) with reply := .dropped } : State)) ∧
        (bad = false → wp = .err → Gives wr fun t => t.reply = .dropped ∧ t.bit Reg.PCIE_STAT 1 = true ∧ SameMem s t) ∧
        ∀ h, bad = false → wp = .dram h → s.chanDead h = false → Gives wr fun t => t.reply = .done ∧ t.regs = s.regs ∧
          (∀ j, j < bs.length → t.byte (h + j) = (bs.getD j 0).toNat) ∧ SameMemBut s t h bs.length)) ∧
    (Gives (exec (.pciePerstNRelease none) s) (fun t => t.rst.perstLow = false ∧ t.regN Reg.PCIE_STATUS = 0) ∧
      ∀ l : PcieLink, Gives (exec (.pciePerstNRelease (some l)) s) fun t => t.rst.perstLow = false ∧ SameMem s t ∧
        t.regN Reg.PCIE_STATUS = 1 + 2 * min l.width.toNat (s.fld Reg.PCIE_CFG 0 3) + 16 * min l.speed.toNat (s.fld Reg.PCIE_CFG 3 3) +
          (if l.msix then 512 else 0)) ∧
    (let settled := fun (t : State) => SameMem s t ∧ ∀ n l, n < 32 → t.pinLevel n = some l → t.bit Reg.GPIO_IN n = l
     (∀ v : Word,
       Gives (exec (.gpioDirWrite v) s) (fun t => settled t ∧ t.host.gpioFree = true ∧ t.regN Reg.GPIO_DIR = v.toNat) ∧
       Gives (exec (.gpioSet v) s) (fun t => settled t ∧ t.regN Reg.GPIO_OUT = s.regN Reg.GPIO_OUT ||| v.toNat) ∧
       Gives (exec (.gpioClr v) s) (fun t => settled t ∧ ∀ i, i < 32 → t.bit Reg.GPIO_OUT i = (s.bit Reg.GPIO_OUT i && !v.getLsbD i))) ∧
     (∀ (n : Fin 32) (l : Bool), Gives (exec (.gpioInputEdge n l) s) fun t => settled t ∧ t.host.gpioExt.testBit n.val = l ∧
       (t.pinLevel n.val = some l → s.bit Reg.GPIO_IRQ_TYPE n.val = true → s.bit Reg.GPIO_IN n.val ≠ l → s.bit Reg.GPIO_IRQ_POL n.val ≠ l →
         t.bit Reg.GPIO_IRQ_STATUS n.val = true)) ∧
     (let first := s.time % 1000000000 < 1000000
      (s.bit Reg.TBS_PPS 0 = false → ∀ h, exec (.ppsPulse h) s = .next s) ∧
      (first → exec (.ppsPulse false) s = .next s) ∧ (¬ first → exec (.ppsPulse true) s = .next s) ∧
      (s.bit Reg.TBS_PPS 0 = true → (first → Gives (exec (.ppsPulse true) s) fun t => settled t ∧ t.host.pps = true) ∧
        (¬ first → Gives (exec (.ppsPulse false) s) fun t => settled t ∧ t.host.pps = false)))) ∧
    (∀ v : Word, let busy := s.bit Reg.MNET_MDIO_STAT 0
      (v.getLsbD 31 = false → exec (.mdioCommand v) s = .next s) ∧
      (v.getLsbD 31 = true → (busy = true → exec (.mdioCommand v) s = .next (s.sticky Reg.MNET_MDIO_STAT 2)) ∧
        (busy = false → Gives (exec (.mdioCommand v) s) fun t => t.host.mdio = some v.toNat ∧ t.bit Reg.MNET_MDIO_STAT 0 = true ∧ SameMem s t))) ∧
    (∀ d : BitVec 16, (s.host.mdio = none → exec (.mdioFrameDone d) s = .next s) ∧
      ∀ v, s.host.mdio = some v → Gives (exec (.mdioFrameDone d) s) fun t => t.host.mdio = none ∧ t.bit Reg.MNET_MDIO_STAT 0 = false ∧
        t.bit Reg.MNET_MDIO_STAT 1 = true ∧ SameMem s t ∧
        t.regN Reg.MNET_MDIO_DATA = if v.testBit 10 then d.toNat else s.regN Reg.MNET_MDIO_DATA) ∧
    ∀ (time : BitVec 64) (frame : List (BitVec 8)), let f := frame.map (fun b => b.toNat)
      let most := if be f 12 2 = 0x8100 then 1522 else 1518
      let bad := f.length < 64 ∨ most < f.length ∨ crc32 (f.take (f.length - 4)) ≠ leVal (f.drop (f.length - 4))
      let skip := s.bit Reg.MNET_CTRL 0 = false ∨ s.macOk 2 f = false
      let up := fun (t : State) (a : Nat) => t.regN a = min (s.regN a + 1) 0xFFFFFFFF
      (skip → exec (.mnetFrameReceive time frame) s = .next s) ∧
      (¬ skip → bad → exec (.mnetFrameReceive time frame) s = .next (s.satAdd Reg.MNET_RXBAD 1)) ∧
      (¬ skip → ¬ bad → Gives (exec (.mnetFrameReceive time frame) s) fun t => up t Reg.MNET_RXOK ∧ t.cores = s.cores)

/-- Memory is a list of address and byte pairs with rising addresses and no byte that an unlisted address would read as.
In every state whose memory has that form, whatever command waits at the front of the queue, the state after the step
has it too, so that equal memories are equal data. -/
def Obligations.MemoryCanonical : Prop :=
  ∀ s t : State, Memory.wf s.mem = true → step s = .next t → Memory.wf t.mem = true

/-- State.reset has an empty queue, and a memory in canonical form with nothing listed: every address below the boot ROM
reads as 0, which is the model's choice (assumption 4). -/
def Obligations.ResetCanonical : Prop :=
  State.reset.pending = [] ∧ Memory.wf State.reset.mem = true ∧ ∀ a, a < 0x1400000000 → State.reset.byte a = 0

end
end

