-- ==== Sys2Proof/Laws/State.lean ====
section
/-! SUPPORT. What each operation on the state leaves as it was, one lemma for each field: every register operation leaves all but
the registers, every memory operation all but memory, a change of a core all but the cores. -/

namespace Sys2Proof.Machine

@[simp] theorem State.setReg_pending (s : State) (a : Nat) (v : Word) : (s.setReg a v).pending = s.pending := rfl
@[simp] theorem State.setReg_freeCount (s : State) (a : Nat) (v : Word) : (s.setReg a v).freeCount = s.freeCount := rfl
@[simp] theorem State.setReg_reply (s : State) (a : Nat) (v : Word) : (s.setReg a v).reply = s.reply := rfl
@[simp] theorem State.setReg_pairs (s : State) (a : Nat) (v : Word) : (s.setReg a v).pairs = s.pairs := rfl
@[simp] theorem State.setReg_onceDone (s : State) (a : Nat) (v : Word) : (s.setReg a v).onceDone = s.onceDone := rfl
@[simp] theorem State.setReg_mem (s : State) (a : Nat) (v : Word) : (s.setReg a v).mem = s.mem := rfl
@[simp] theorem State.setReg_cores (s : State) (a : Nat) (v : Word) : (s.setReg a v).cores = s.cores := rfl
@[simp] theorem State.setReg_roleInval (s : State) (a : Nat) (v : Word) : (s.setReg a v).roleInval = s.roleInval := rfl
@[simp] theorem State.setReg_pshadow (s : State) (a : Nat) (v : Word) : (s.setReg a v).pshadow = s.pshadow := rfl
@[simp] theorem State.setReg_pactive (s : State) (a : Nat) (v : Word) : (s.setReg a v).pactive = s.pactive := rfl
@[simp] theorem State.setReg_badLines (s : State) (a : Nat) (v : Word) : (s.setReg a v).badLines = s.badLines := rfl
@[simp] theorem State.setReg_ccache (s : State) (a : Nat) (v : Word) : (s.setReg a v).ccache = s.ccache := rfl
@[simp] theorem State.setReg_wsFilled (s : State) (a : Nat) (v : Word) : (s.setReg a v).wsFilled = s.wsFilled := rfl
@[simp] theorem State.setReg_pushes (s : State) (a : Nat) (v : Word) : (s.setReg a v).pushes = s.pushes := rfl
@[simp] theorem State.setReg_notices (s : State) (a : Nat) (v : Word) : (s.setReg a v).notices = s.notices := rfl
@[simp] theorem State.setReg_weave (s : State) (a : Nat) (v : Word) : (s.setReg a v).weave = s.weave := rfl
@[simp] theorem State.setReg_events (s : State) (a : Nat) (v : Word) : (s.setReg a v).events = s.events := rfl
@[simp] theorem State.setReg_hist (s : State) (a : Nat) (v : Word) : (s.setReg a v).hist = s.hist := rfl
@[simp] theorem State.setReg_histCount (s : State) (a : Nat) (v : Word) : (s.setReg a v).histCount = s.histCount := rfl
@[simp] theorem State.setReg_jobs (s : State) (a : Nat) (v : Word) : (s.setReg a v).jobs = s.jobs := rfl
@[simp] theorem State.setReg_ingest (s : State) (a : Nat) (v : Word) : (s.setReg a v).ingest = s.ingest := rfl
@[simp] theorem State.setReg_vdec (s : State) (a : Nat) (v : Word) : (s.setReg a v).vdec = s.vdec := rfl
@[simp] theorem State.setReg_isp (s : State) (a : Nat) (v : Word) : (s.setReg a v).isp = s.isp := rfl
@[simp] theorem State.setReg_dram (s : State) (a : Nat) (v : Word) : (s.setReg a v).dram = s.dram := rfl
@[simp] theorem State.setReg_power (s : State) (a : Nat) (v : Word) : (s.setReg a v).power = s.power := rfl
@[simp] theorem State.setReg_rst (s : State) (a : Nat) (v : Word) : (s.setReg a v).rst = s.rst := rfl
@[simp] theorem State.setReg_boot (s : State) (a : Nat) (v : Word) : (s.setReg a v).boot = s.boot := rfl
@[simp] theorem State.setReg_dict (s : State) (a : Nat) (v : Word) : (s.setReg a v).dict = s.dict := rfl
@[simp] theorem State.setReg_host (s : State) (a : Nat) (v : Word) : (s.setReg a v).host = s.host := rfl
@[simp] theorem State.setReg_telem (s : State) (a : Nat) (v : Word) : (s.setReg a v).telem = s.telem := rfl
@[simp] theorem State.setReg_stepRest (s : State) (a : Nat) (v : Word) : (s.setReg a v).stepRest = s.stepRest := rfl

@[simp] theorem State.clearRegs_pending (s : State) (lo hi : Nat) : (s.clearRegs lo hi).pending = s.pending := rfl
@[simp] theorem State.clearRegs_freeCount (s : State) (lo hi : Nat) : (s.clearRegs lo hi).freeCount = s.freeCount := rfl
@[simp] theorem State.clearRegs_reply (s : State) (lo hi : Nat) : (s.clearRegs lo hi).reply = s.reply := rfl
@[simp] theorem State.clearRegs_pairs (s : State) (lo hi : Nat) : (s.clearRegs lo hi).pairs = s.pairs := rfl
@[simp] theorem State.clearRegs_onceDone (s : State) (lo hi : Nat) : (s.clearRegs lo hi).onceDone = s.onceDone := rfl
@[simp] theorem State.clearRegs_mem (s : State) (lo hi : Nat) : (s.clearRegs lo hi).mem = s.mem := rfl
@[simp] theorem State.clearRegs_cores (s : State) (lo hi : Nat) : (s.clearRegs lo hi).cores = s.cores := rfl
@[simp] theorem State.clearRegs_roleInval (s : State) (lo hi : Nat) : (s.clearRegs lo hi).roleInval = s.roleInval := rfl
@[simp] theorem State.clearRegs_pshadow (s : State) (lo hi : Nat) : (s.clearRegs lo hi).pshadow = s.pshadow := rfl
@[simp] theorem State.clearRegs_pactive (s : State) (lo hi : Nat) : (s.clearRegs lo hi).pactive = s.pactive := rfl
@[simp] theorem State.clearRegs_badLines (s : State) (lo hi : Nat) : (s.clearRegs lo hi).badLines = s.badLines := rfl
@[simp] theorem State.clearRegs_ccache (s : State) (lo hi : Nat) : (s.clearRegs lo hi).ccache = s.ccache := rfl
@[simp] theorem State.clearRegs_wsFilled (s : State) (lo hi : Nat) : (s.clearRegs lo hi).wsFilled = s.wsFilled := rfl
@[simp] theorem State.clearRegs_pushes (s : State) (lo hi : Nat) : (s.clearRegs lo hi).pushes = s.pushes := rfl
@[simp] theorem State.clearRegs_notices (s : State) (lo hi : Nat) : (s.clearRegs lo hi).notices = s.notices := rfl
@[simp] theorem State.clearRegs_weave (s : State) (lo hi : Nat) : (s.clearRegs lo hi).weave = s.weave := rfl
@[simp] theorem State.clearRegs_events (s : State) (lo hi : Nat) : (s.clearRegs lo hi).events = s.events := rfl
@[simp] theorem State.clearRegs_hist (s : State) (lo hi : Nat) : (s.clearRegs lo hi).hist = s.hist := rfl
@[simp] theorem State.clearRegs_histCount (s : State) (lo hi : Nat) : (s.clearRegs lo hi).histCount = s.histCount := rfl
@[simp] theorem State.clearRegs_jobs (s : State) (lo hi : Nat) : (s.clearRegs lo hi).jobs = s.jobs := rfl
@[simp] theorem State.clearRegs_ingest (s : State) (lo hi : Nat) : (s.clearRegs lo hi).ingest = s.ingest := rfl
@[simp] theorem State.clearRegs_vdec (s : State) (lo hi : Nat) : (s.clearRegs lo hi).vdec = s.vdec := rfl
@[simp] theorem State.clearRegs_isp (s : State) (lo hi : Nat) : (s.clearRegs lo hi).isp = s.isp := rfl
@[simp] theorem State.clearRegs_dram (s : State) (lo hi : Nat) : (s.clearRegs lo hi).dram = s.dram := rfl
@[simp] theorem State.clearRegs_power (s : State) (lo hi : Nat) : (s.clearRegs lo hi).power = s.power := rfl
@[simp] theorem State.clearRegs_rst (s : State) (lo hi : Nat) : (s.clearRegs lo hi).rst = s.rst := rfl
@[simp] theorem State.clearRegs_boot (s : State) (lo hi : Nat) : (s.clearRegs lo hi).boot = s.boot := rfl
@[simp] theorem State.clearRegs_dict (s : State) (lo hi : Nat) : (s.clearRegs lo hi).dict = s.dict := rfl
@[simp] theorem State.clearRegs_host (s : State) (lo hi : Nat) : (s.clearRegs lo hi).host = s.host := rfl
@[simp] theorem State.clearRegs_telem (s : State) (lo hi : Nat) : (s.clearRegs lo hi).telem = s.telem := rfl
@[simp] theorem State.clearRegs_stepRest (s : State) (lo hi : Nat) : (s.clearRegs lo hi).stepRest = s.stepRest := rfl

@[simp] theorem State.setRegN_pending (s : State) (a v : Nat) : (s.setRegN a v).pending = s.pending := State.setReg_pending s a _
@[simp] theorem State.setRegN_freeCount (s : State) (a v : Nat) : (s.setRegN a v).freeCount = s.freeCount := State.setReg_freeCount s a _
@[simp] theorem State.setRegN_reply (s : State) (a v : Nat) : (s.setRegN a v).reply = s.reply := State.setReg_reply s a _
@[simp] theorem State.setRegN_pairs (s : State) (a v : Nat) : (s.setRegN a v).pairs = s.pairs := State.setReg_pairs s a _
@[simp] theorem State.setRegN_onceDone (s : State) (a v : Nat) : (s.setRegN a v).onceDone = s.onceDone := State.setReg_onceDone s a _
@[simp] theorem State.setRegN_mem (s : State) (a v : Nat) : (s.setRegN a v).mem = s.mem := State.setReg_mem s a _
@[simp] theorem State.setRegN_cores (s : State) (a v : Nat) : (s.setRegN a v).cores = s.cores := State.setReg_cores s a _
@[simp] theorem State.setRegN_roleInval (s : State) (a v : Nat) : (s.setRegN a v).roleInval = s.roleInval := State.setReg_roleInval s a _
@[simp] theorem State.setRegN_pshadow (s : State) (a v : Nat) : (s.setRegN a v).pshadow = s.pshadow := State.setReg_pshadow s a _
@[simp] theorem State.setRegN_pactive (s : State) (a v : Nat) : (s.setRegN a v).pactive = s.pactive := State.setReg_pactive s a _
@[simp] theorem State.setRegN_badLines (s : State) (a v : Nat) : (s.setRegN a v).badLines = s.badLines := State.setReg_badLines s a _
@[simp] theorem State.setRegN_ccache (s : State) (a v : Nat) : (s.setRegN a v).ccache = s.ccache := State.setReg_ccache s a _
@[simp] theorem State.setRegN_wsFilled (s : State) (a v : Nat) : (s.setRegN a v).wsFilled = s.wsFilled := State.setReg_wsFilled s a _
@[simp] theorem State.setRegN_pushes (s : State) (a v : Nat) : (s.setRegN a v).pushes = s.pushes := State.setReg_pushes s a _
@[simp] theorem State.setRegN_notices (s : State) (a v : Nat) : (s.setRegN a v).notices = s.notices := State.setReg_notices s a _
@[simp] theorem State.setRegN_weave (s : State) (a v : Nat) : (s.setRegN a v).weave = s.weave := State.setReg_weave s a _
@[simp] theorem State.setRegN_events (s : State) (a v : Nat) : (s.setRegN a v).events = s.events := State.setReg_events s a _
@[simp] theorem State.setRegN_hist (s : State) (a v : Nat) : (s.setRegN a v).hist = s.hist := State.setReg_hist s a _
@[simp] theorem State.setRegN_histCount (s : State) (a v : Nat) : (s.setRegN a v).histCount = s.histCount := State.setReg_histCount s a _
@[simp] theorem State.setRegN_jobs (s : State) (a v : Nat) : (s.setRegN a v).jobs = s.jobs := State.setReg_jobs s a _
@[simp] theorem State.setRegN_ingest (s : State) (a v : Nat) : (s.setRegN a v).ingest = s.ingest := State.setReg_ingest s a _
@[simp] theorem State.setRegN_vdec (s : State) (a v : Nat) : (s.setRegN a v).vdec = s.vdec := State.setReg_vdec s a _
@[simp] theorem State.setRegN_isp (s : State) (a v : Nat) : (s.setRegN a v).isp = s.isp := State.setReg_isp s a _
@[simp] theorem State.setRegN_dram (s : State) (a v : Nat) : (s.setRegN a v).dram = s.dram := State.setReg_dram s a _
@[simp] theorem State.setRegN_power (s : State) (a v : Nat) : (s.setRegN a v).power = s.power := State.setReg_power s a _
@[simp] theorem State.setRegN_rst (s : State) (a v : Nat) : (s.setRegN a v).rst = s.rst := State.setReg_rst s a _
@[simp] theorem State.setRegN_boot (s : State) (a v : Nat) : (s.setRegN a v).boot = s.boot := State.setReg_boot s a _
@[simp] theorem State.setRegN_dict (s : State) (a v : Nat) : (s.setRegN a v).dict = s.dict := State.setReg_dict s a _
@[simp] theorem State.setRegN_host (s : State) (a v : Nat) : (s.setRegN a v).host = s.host := State.setReg_host s a _
@[simp] theorem State.setRegN_telem (s : State) (a v : Nat) : (s.setRegN a v).telem = s.telem := State.setReg_telem s a _
@[simp] theorem State.setRegN_stepRest (s : State) (a v : Nat) : (s.setRegN a v).stepRest = s.stepRest := State.setReg_stepRest s a _

@[simp] theorem State.setFld_pending (s : State) (a lo w v : Nat) : (s.setFld a lo w v).pending = s.pending := State.setRegN_pending s a _
@[simp] theorem State.setFld_freeCount (s : State) (a lo w v : Nat) : (s.setFld a lo w v).freeCount = s.freeCount := State.setRegN_freeCount s a _
@[simp] theorem State.setFld_reply (s : State) (a lo w v : Nat) : (s.setFld a lo w v).reply = s.reply := State.setRegN_reply s a _
@[simp] theorem State.setFld_pairs (s : State) (a lo w v : Nat) : (s.setFld a lo w v).pairs = s.pairs := State.setRegN_pairs s a _
@[simp] theorem State.setFld_onceDone (s : State) (a lo w v : Nat) : (s.setFld a lo w v).onceDone = s.onceDone := State.setRegN_onceDone s a _
@[simp] theorem State.setFld_mem (s : State) (a lo w v : Nat) : (s.setFld a lo w v).mem = s.mem := State.setRegN_mem s a _
@[simp] theorem State.setFld_cores (s : State) (a lo w v : Nat) : (s.setFld a lo w v).cores = s.cores := State.setRegN_cores s a _
@[simp] theorem State.setFld_roleInval (s : State) (a lo w v : Nat) : (s.setFld a lo w v).roleInval = s.roleInval := State.setRegN_roleInval s a _
@[simp] theorem State.setFld_pshadow (s : State) (a lo w v : Nat) : (s.setFld a lo w v).pshadow = s.pshadow := State.setRegN_pshadow s a _
@[simp] theorem State.setFld_pactive (s : State) (a lo w v : Nat) : (s.setFld a lo w v).pactive = s.pactive := State.setRegN_pactive s a _
@[simp] theorem State.setFld_badLines (s : State) (a lo w v : Nat) : (s.setFld a lo w v).badLines = s.badLines := State.setRegN_badLines s a _
@[simp] theorem State.setFld_ccache (s : State) (a lo w v : Nat) : (s.setFld a lo w v).ccache = s.ccache := State.setRegN_ccache s a _
@[simp] theorem State.setFld_wsFilled (s : State) (a lo w v : Nat) : (s.setFld a lo w v).wsFilled = s.wsFilled := State.setRegN_wsFilled s a _
@[simp] theorem State.setFld_pushes (s : State) (a lo w v : Nat) : (s.setFld a lo w v).pushes = s.pushes := State.setRegN_pushes s a _
@[simp] theorem State.setFld_notices (s : State) (a lo w v : Nat) : (s.setFld a lo w v).notices = s.notices := State.setRegN_notices s a _
@[simp] theorem State.setFld_weave (s : State) (a lo w v : Nat) : (s.setFld a lo w v).weave = s.weave := State.setRegN_weave s a _
@[simp] theorem State.setFld_events (s : State) (a lo w v : Nat) : (s.setFld a lo w v).events = s.events := State.setRegN_events s a _
@[simp] theorem State.setFld_hist (s : State) (a lo w v : Nat) : (s.setFld a lo w v).hist = s.hist := State.setRegN_hist s a _
@[simp] theorem State.setFld_histCount (s : State) (a lo w v : Nat) : (s.setFld a lo w v).histCount = s.histCount := State.setRegN_histCount s a _
@[simp] theorem State.setFld_jobs (s : State) (a lo w v : Nat) : (s.setFld a lo w v).jobs = s.jobs := State.setRegN_jobs s a _
@[simp] theorem State.setFld_ingest (s : State) (a lo w v : Nat) : (s.setFld a lo w v).ingest = s.ingest := State.setRegN_ingest s a _
@[simp] theorem State.setFld_vdec (s : State) (a lo w v : Nat) : (s.setFld a lo w v).vdec = s.vdec := State.setRegN_vdec s a _
@[simp] theorem State.setFld_isp (s : State) (a lo w v : Nat) : (s.setFld a lo w v).isp = s.isp := State.setRegN_isp s a _
@[simp] theorem State.setFld_dram (s : State) (a lo w v : Nat) : (s.setFld a lo w v).dram = s.dram := State.setRegN_dram s a _
@[simp] theorem State.setFld_power (s : State) (a lo w v : Nat) : (s.setFld a lo w v).power = s.power := State.setRegN_power s a _
@[simp] theorem State.setFld_rst (s : State) (a lo w v : Nat) : (s.setFld a lo w v).rst = s.rst := State.setRegN_rst s a _
@[simp] theorem State.setFld_boot (s : State) (a lo w v : Nat) : (s.setFld a lo w v).boot = s.boot := State.setRegN_boot s a _
@[simp] theorem State.setFld_dict (s : State) (a lo w v : Nat) : (s.setFld a lo w v).dict = s.dict := State.setRegN_dict s a _
@[simp] theorem State.setFld_host (s : State) (a lo w v : Nat) : (s.setFld a lo w v).host = s.host := State.setRegN_host s a _
@[simp] theorem State.setFld_telem (s : State) (a lo w v : Nat) : (s.setFld a lo w v).telem = s.telem := State.setRegN_telem s a _
@[simp] theorem State.setFld_stepRest (s : State) (a lo w v : Nat) : (s.setFld a lo w v).stepRest = s.stepRest := State.setRegN_stepRest s a _

@[simp] theorem State.putBit_pending (s : State) (a i : Nat) (b : Bool) : (s.putBit a i b).pending = s.pending := State.setFld_pending s a i 1 _
@[simp] theorem State.putBit_freeCount (s : State) (a i : Nat) (b : Bool) : (s.putBit a i b).freeCount = s.freeCount := State.setFld_freeCount s a i 1 _
@[simp] theorem State.putBit_reply (s : State) (a i : Nat) (b : Bool) : (s.putBit a i b).reply = s.reply := State.setFld_reply s a i 1 _
@[simp] theorem State.putBit_pairs (s : State) (a i : Nat) (b : Bool) : (s.putBit a i b).pairs = s.pairs := State.setFld_pairs s a i 1 _
@[simp] theorem State.putBit_onceDone (s : State) (a i : Nat) (b : Bool) : (s.putBit a i b).onceDone = s.onceDone := State.setFld_onceDone s a i 1 _
@[simp] theorem State.putBit_mem (s : State) (a i : Nat) (b : Bool) : (s.putBit a i b).mem = s.mem := State.setFld_mem s a i 1 _
@[simp] theorem State.putBit_cores (s : State) (a i : Nat) (b : Bool) : (s.putBit a i b).cores = s.cores := State.setFld_cores s a i 1 _
@[simp] theorem State.putBit_roleInval (s : State) (a i : Nat) (b : Bool) : (s.putBit a i b).roleInval = s.roleInval := State.setFld_roleInval s a i 1 _
@[simp] theorem State.putBit_pshadow (s : State) (a i : Nat) (b : Bool) : (s.putBit a i b).pshadow = s.pshadow := State.setFld_pshadow s a i 1 _
@[simp] theorem State.putBit_pactive (s : State) (a i : Nat) (b : Bool) : (s.putBit a i b).pactive = s.pactive := State.setFld_pactive s a i 1 _
@[simp] theorem State.putBit_badLines (s : State) (a i : Nat) (b : Bool) : (s.putBit a i b).badLines = s.badLines := State.setFld_badLines s a i 1 _
@[simp] theorem State.putBit_ccache (s : State) (a i : Nat) (b : Bool) : (s.putBit a i b).ccache = s.ccache := State.setFld_ccache s a i 1 _
@[simp] theorem State.putBit_wsFilled (s : State) (a i : Nat) (b : Bool) : (s.putBit a i b).wsFilled = s.wsFilled := State.setFld_wsFilled s a i 1 _
@[simp] theorem State.putBit_pushes (s : State) (a i : Nat) (b : Bool) : (s.putBit a i b).pushes = s.pushes := State.setFld_pushes s a i 1 _
@[simp] theorem State.putBit_notices (s : State) (a i : Nat) (b : Bool) : (s.putBit a i b).notices = s.notices := State.setFld_notices s a i 1 _
@[simp] theorem State.putBit_weave (s : State) (a i : Nat) (b : Bool) : (s.putBit a i b).weave = s.weave := State.setFld_weave s a i 1 _
@[simp] theorem State.putBit_events (s : State) (a i : Nat) (b : Bool) : (s.putBit a i b).events = s.events := State.setFld_events s a i 1 _
@[simp] theorem State.putBit_hist (s : State) (a i : Nat) (b : Bool) : (s.putBit a i b).hist = s.hist := State.setFld_hist s a i 1 _
@[simp] theorem State.putBit_histCount (s : State) (a i : Nat) (b : Bool) : (s.putBit a i b).histCount = s.histCount := State.setFld_histCount s a i 1 _
@[simp] theorem State.putBit_jobs (s : State) (a i : Nat) (b : Bool) : (s.putBit a i b).jobs = s.jobs := State.setFld_jobs s a i 1 _
@[simp] theorem State.putBit_ingest (s : State) (a i : Nat) (b : Bool) : (s.putBit a i b).ingest = s.ingest := State.setFld_ingest s a i 1 _
@[simp] theorem State.putBit_vdec (s : State) (a i : Nat) (b : Bool) : (s.putBit a i b).vdec = s.vdec := State.setFld_vdec s a i 1 _
@[simp] theorem State.putBit_isp (s : State) (a i : Nat) (b : Bool) : (s.putBit a i b).isp = s.isp := State.setFld_isp s a i 1 _
@[simp] theorem State.putBit_dram (s : State) (a i : Nat) (b : Bool) : (s.putBit a i b).dram = s.dram := State.setFld_dram s a i 1 _
@[simp] theorem State.putBit_power (s : State) (a i : Nat) (b : Bool) : (s.putBit a i b).power = s.power := State.setFld_power s a i 1 _
@[simp] theorem State.putBit_rst (s : State) (a i : Nat) (b : Bool) : (s.putBit a i b).rst = s.rst := State.setFld_rst s a i 1 _
@[simp] theorem State.putBit_boot (s : State) (a i : Nat) (b : Bool) : (s.putBit a i b).boot = s.boot := State.setFld_boot s a i 1 _
@[simp] theorem State.putBit_dict (s : State) (a i : Nat) (b : Bool) : (s.putBit a i b).dict = s.dict := State.setFld_dict s a i 1 _
@[simp] theorem State.putBit_host (s : State) (a i : Nat) (b : Bool) : (s.putBit a i b).host = s.host := State.setFld_host s a i 1 _
@[simp] theorem State.putBit_telem (s : State) (a i : Nat) (b : Bool) : (s.putBit a i b).telem = s.telem := State.setFld_telem s a i 1 _
@[simp] theorem State.putBit_stepRest (s : State) (a i : Nat) (b : Bool) : (s.putBit a i b).stepRest = s.stepRest := State.setFld_stepRest s a i 1 _

@[simp] theorem State.sticky_pending (s : State) (a i : Nat) : (s.sticky a i).pending = s.pending := State.putBit_pending s a i true
@[simp] theorem State.sticky_freeCount (s : State) (a i : Nat) : (s.sticky a i).freeCount = s.freeCount := State.putBit_freeCount s a i true
@[simp] theorem State.sticky_reply (s : State) (a i : Nat) : (s.sticky a i).reply = s.reply := State.putBit_reply s a i true
@[simp] theorem State.sticky_pairs (s : State) (a i : Nat) : (s.sticky a i).pairs = s.pairs := State.putBit_pairs s a i true
@[simp] theorem State.sticky_onceDone (s : State) (a i : Nat) : (s.sticky a i).onceDone = s.onceDone := State.putBit_onceDone s a i true
@[simp] theorem State.sticky_mem (s : State) (a i : Nat) : (s.sticky a i).mem = s.mem := State.putBit_mem s a i true
@[simp] theorem State.sticky_cores (s : State) (a i : Nat) : (s.sticky a i).cores = s.cores := State.putBit_cores s a i true
@[simp] theorem State.sticky_roleInval (s : State) (a i : Nat) : (s.sticky a i).roleInval = s.roleInval := State.putBit_roleInval s a i true
@[simp] theorem State.sticky_pshadow (s : State) (a i : Nat) : (s.sticky a i).pshadow = s.pshadow := State.putBit_pshadow s a i true
@[simp] theorem State.sticky_pactive (s : State) (a i : Nat) : (s.sticky a i).pactive = s.pactive := State.putBit_pactive s a i true
@[simp] theorem State.sticky_badLines (s : State) (a i : Nat) : (s.sticky a i).badLines = s.badLines := State.putBit_badLines s a i true
@[simp] theorem State.sticky_ccache (s : State) (a i : Nat) : (s.sticky a i).ccache = s.ccache := State.putBit_ccache s a i true
@[simp] theorem State.sticky_wsFilled (s : State) (a i : Nat) : (s.sticky a i).wsFilled = s.wsFilled := State.putBit_wsFilled s a i true
@[simp] theorem State.sticky_pushes (s : State) (a i : Nat) : (s.sticky a i).pushes = s.pushes := State.putBit_pushes s a i true
@[simp] theorem State.sticky_notices (s : State) (a i : Nat) : (s.sticky a i).notices = s.notices := State.putBit_notices s a i true
@[simp] theorem State.sticky_weave (s : State) (a i : Nat) : (s.sticky a i).weave = s.weave := State.putBit_weave s a i true
@[simp] theorem State.sticky_events (s : State) (a i : Nat) : (s.sticky a i).events = s.events := State.putBit_events s a i true
@[simp] theorem State.sticky_hist (s : State) (a i : Nat) : (s.sticky a i).hist = s.hist := State.putBit_hist s a i true
@[simp] theorem State.sticky_histCount (s : State) (a i : Nat) : (s.sticky a i).histCount = s.histCount := State.putBit_histCount s a i true
@[simp] theorem State.sticky_jobs (s : State) (a i : Nat) : (s.sticky a i).jobs = s.jobs := State.putBit_jobs s a i true
@[simp] theorem State.sticky_ingest (s : State) (a i : Nat) : (s.sticky a i).ingest = s.ingest := State.putBit_ingest s a i true
@[simp] theorem State.sticky_vdec (s : State) (a i : Nat) : (s.sticky a i).vdec = s.vdec := State.putBit_vdec s a i true
@[simp] theorem State.sticky_isp (s : State) (a i : Nat) : (s.sticky a i).isp = s.isp := State.putBit_isp s a i true
@[simp] theorem State.sticky_dram (s : State) (a i : Nat) : (s.sticky a i).dram = s.dram := State.putBit_dram s a i true
@[simp] theorem State.sticky_power (s : State) (a i : Nat) : (s.sticky a i).power = s.power := State.putBit_power s a i true
@[simp] theorem State.sticky_rst (s : State) (a i : Nat) : (s.sticky a i).rst = s.rst := State.putBit_rst s a i true
@[simp] theorem State.sticky_boot (s : State) (a i : Nat) : (s.sticky a i).boot = s.boot := State.putBit_boot s a i true
@[simp] theorem State.sticky_dict (s : State) (a i : Nat) : (s.sticky a i).dict = s.dict := State.putBit_dict s a i true
@[simp] theorem State.sticky_host (s : State) (a i : Nat) : (s.sticky a i).host = s.host := State.putBit_host s a i true
@[simp] theorem State.sticky_telem (s : State) (a i : Nat) : (s.sticky a i).telem = s.telem := State.putBit_telem s a i true
@[simp] theorem State.sticky_stepRest (s : State) (a i : Nat) : (s.sticky a i).stepRest = s.stepRest := State.putBit_stepRest s a i true

@[simp] theorem State.setReg64_pending (s : State) (a v : Nat) : (s.setReg64 a v).pending = s.pending := (State.setRegN_pending _ _ _).trans (State.setRegN_pending s a _)
@[simp] theorem State.setReg64_freeCount (s : State) (a v : Nat) : (s.setReg64 a v).freeCount = s.freeCount := (State.setRegN_freeCount _ _ _).trans (State.setRegN_freeCount s a _)
@[simp] theorem State.setReg64_reply (s : State) (a v : Nat) : (s.setReg64 a v).reply = s.reply := (State.setRegN_reply _ _ _).trans (State.setRegN_reply s a _)
@[simp] theorem State.setReg64_pairs (s : State) (a v : Nat) : (s.setReg64 a v).pairs = s.pairs := (State.setRegN_pairs _ _ _).trans (State.setRegN_pairs s a _)
@[simp] theorem State.setReg64_onceDone (s : State) (a v : Nat) : (s.setReg64 a v).onceDone = s.onceDone := (State.setRegN_onceDone _ _ _).trans (State.setRegN_onceDone s a _)
@[simp] theorem State.setReg64_mem (s : State) (a v : Nat) : (s.setReg64 a v).mem = s.mem := (State.setRegN_mem _ _ _).trans (State.setRegN_mem s a _)
@[simp] theorem State.setReg64_cores (s : State) (a v : Nat) : (s.setReg64 a v).cores = s.cores := (State.setRegN_cores _ _ _).trans (State.setRegN_cores s a _)
@[simp] theorem State.setReg64_roleInval (s : State) (a v : Nat) : (s.setReg64 a v).roleInval = s.roleInval := (State.setRegN_roleInval _ _ _).trans (State.setRegN_roleInval s a _)
@[simp] theorem State.setReg64_pshadow (s : State) (a v : Nat) : (s.setReg64 a v).pshadow = s.pshadow := (State.setRegN_pshadow _ _ _).trans (State.setRegN_pshadow s a _)
@[simp] theorem State.setReg64_pactive (s : State) (a v : Nat) : (s.setReg64 a v).pactive = s.pactive := (State.setRegN_pactive _ _ _).trans (State.setRegN_pactive s a _)
@[simp] theorem State.setReg64_badLines (s : State) (a v : Nat) : (s.setReg64 a v).badLines = s.badLines := (State.setRegN_badLines _ _ _).trans (State.setRegN_badLines s a _)
@[simp] theorem State.setReg64_ccache (s : State) (a v : Nat) : (s.setReg64 a v).ccache = s.ccache := (State.setRegN_ccache _ _ _).trans (State.setRegN_ccache s a _)
@[simp] theorem State.setReg64_wsFilled (s : State) (a v : Nat) : (s.setReg64 a v).wsFilled = s.wsFilled := (State.setRegN_wsFilled _ _ _).trans (State.setRegN_wsFilled s a _)
@[simp] theorem State.setReg64_pushes (s : State) (a v : Nat) : (s.setReg64 a v).pushes = s.pushes := (State.setRegN_pushes _ _ _).trans (State.setRegN_pushes s a _)
@[simp] theorem State.setReg64_notices (s : State) (a v : Nat) : (s.setReg64 a v).notices = s.notices := (State.setRegN_notices _ _ _).trans (State.setRegN_notices s a _)
@[simp] theorem State.setReg64_weave (s : State) (a v : Nat) : (s.setReg64 a v).weave = s.weave := (State.setRegN_weave _ _ _).trans (State.setRegN_weave s a _)
@[simp] theorem State.setReg64_events (s : State) (a v : Nat) : (s.setReg64 a v).events = s.events := (State.setRegN_events _ _ _).trans (State.setRegN_events s a _)
@[simp] theorem State.setReg64_hist (s : State) (a v : Nat) : (s.setReg64 a v).hist = s.hist := (State.setRegN_hist _ _ _).trans (State.setRegN_hist s a _)
@[simp] theorem State.setReg64_histCount (s : State) (a v : Nat) : (s.setReg64 a v).histCount = s.histCount := (State.setRegN_histCount _ _ _).trans (State.setRegN_histCount s a _)
@[simp] theorem State.setReg64_jobs (s : State) (a v : Nat) : (s.setReg64 a v).jobs = s.jobs := (State.setRegN_jobs _ _ _).trans (State.setRegN_jobs s a _)
@[simp] theorem State.setReg64_ingest (s : State) (a v : Nat) : (s.setReg64 a v).ingest = s.ingest := (State.setRegN_ingest _ _ _).trans (State.setRegN_ingest s a _)
@[simp] theorem State.setReg64_vdec (s : State) (a v : Nat) : (s.setReg64 a v).vdec = s.vdec := (State.setRegN_vdec _ _ _).trans (State.setRegN_vdec s a _)
@[simp] theorem State.setReg64_isp (s : State) (a v : Nat) : (s.setReg64 a v).isp = s.isp := (State.setRegN_isp _ _ _).trans (State.setRegN_isp s a _)
@[simp] theorem State.setReg64_dram (s : State) (a v : Nat) : (s.setReg64 a v).dram = s.dram := (State.setRegN_dram _ _ _).trans (State.setRegN_dram s a _)
@[simp] theorem State.setReg64_power (s : State) (a v : Nat) : (s.setReg64 a v).power = s.power := (State.setRegN_power _ _ _).trans (State.setRegN_power s a _)
@[simp] theorem State.setReg64_rst (s : State) (a v : Nat) : (s.setReg64 a v).rst = s.rst := (State.setRegN_rst _ _ _).trans (State.setRegN_rst s a _)
@[simp] theorem State.setReg64_boot (s : State) (a v : Nat) : (s.setReg64 a v).boot = s.boot := (State.setRegN_boot _ _ _).trans (State.setRegN_boot s a _)
@[simp] theorem State.setReg64_dict (s : State) (a v : Nat) : (s.setReg64 a v).dict = s.dict := (State.setRegN_dict _ _ _).trans (State.setRegN_dict s a _)
@[simp] theorem State.setReg64_host (s : State) (a v : Nat) : (s.setReg64 a v).host = s.host := (State.setRegN_host _ _ _).trans (State.setRegN_host s a _)
@[simp] theorem State.setReg64_telem (s : State) (a v : Nat) : (s.setReg64 a v).telem = s.telem := (State.setRegN_telem _ _ _).trans (State.setRegN_telem s a _)
@[simp] theorem State.setReg64_stepRest (s : State) (a v : Nat) : (s.setReg64 a v).stepRest = s.stepRest := (State.setRegN_stepRest _ _ _).trans (State.setRegN_stepRest s a _)

@[simp] theorem State.satAdd_pending (s : State) (a n : Nat) : (s.satAdd a n).pending = s.pending := State.setRegN_pending s a _
@[simp] theorem State.satAdd_freeCount (s : State) (a n : Nat) : (s.satAdd a n).freeCount = s.freeCount := State.setRegN_freeCount s a _
@[simp] theorem State.satAdd_reply (s : State) (a n : Nat) : (s.satAdd a n).reply = s.reply := State.setRegN_reply s a _
@[simp] theorem State.satAdd_pairs (s : State) (a n : Nat) : (s.satAdd a n).pairs = s.pairs := State.setRegN_pairs s a _
@[simp] theorem State.satAdd_onceDone (s : State) (a n : Nat) : (s.satAdd a n).onceDone = s.onceDone := State.setRegN_onceDone s a _
@[simp] theorem State.satAdd_mem (s : State) (a n : Nat) : (s.satAdd a n).mem = s.mem := State.setRegN_mem s a _
@[simp] theorem State.satAdd_cores (s : State) (a n : Nat) : (s.satAdd a n).cores = s.cores := State.setRegN_cores s a _
@[simp] theorem State.satAdd_roleInval (s : State) (a n : Nat) : (s.satAdd a n).roleInval = s.roleInval := State.setRegN_roleInval s a _
@[simp] theorem State.satAdd_pshadow (s : State) (a n : Nat) : (s.satAdd a n).pshadow = s.pshadow := State.setRegN_pshadow s a _
@[simp] theorem State.satAdd_pactive (s : State) (a n : Nat) : (s.satAdd a n).pactive = s.pactive := State.setRegN_pactive s a _
@[simp] theorem State.satAdd_badLines (s : State) (a n : Nat) : (s.satAdd a n).badLines = s.badLines := State.setRegN_badLines s a _
@[simp] theorem State.satAdd_ccache (s : State) (a n : Nat) : (s.satAdd a n).ccache = s.ccache := State.setRegN_ccache s a _
@[simp] theorem State.satAdd_wsFilled (s : State) (a n : Nat) : (s.satAdd a n).wsFilled = s.wsFilled := State.setRegN_wsFilled s a _
@[simp] theorem State.satAdd_pushes (s : State) (a n : Nat) : (s.satAdd a n).pushes = s.pushes := State.setRegN_pushes s a _
@[simp] theorem State.satAdd_notices (s : State) (a n : Nat) : (s.satAdd a n).notices = s.notices := State.setRegN_notices s a _
@[simp] theorem State.satAdd_weave (s : State) (a n : Nat) : (s.satAdd a n).weave = s.weave := State.setRegN_weave s a _
@[simp] theorem State.satAdd_events (s : State) (a n : Nat) : (s.satAdd a n).events = s.events := State.setRegN_events s a _
@[simp] theorem State.satAdd_hist (s : State) (a n : Nat) : (s.satAdd a n).hist = s.hist := State.setRegN_hist s a _
@[simp] theorem State.satAdd_histCount (s : State) (a n : Nat) : (s.satAdd a n).histCount = s.histCount := State.setRegN_histCount s a _
@[simp] theorem State.satAdd_jobs (s : State) (a n : Nat) : (s.satAdd a n).jobs = s.jobs := State.setRegN_jobs s a _
@[simp] theorem State.satAdd_ingest (s : State) (a n : Nat) : (s.satAdd a n).ingest = s.ingest := State.setRegN_ingest s a _
@[simp] theorem State.satAdd_vdec (s : State) (a n : Nat) : (s.satAdd a n).vdec = s.vdec := State.setRegN_vdec s a _
@[simp] theorem State.satAdd_isp (s : State) (a n : Nat) : (s.satAdd a n).isp = s.isp := State.setRegN_isp s a _
@[simp] theorem State.satAdd_dram (s : State) (a n : Nat) : (s.satAdd a n).dram = s.dram := State.setRegN_dram s a _
@[simp] theorem State.satAdd_power (s : State) (a n : Nat) : (s.satAdd a n).power = s.power := State.setRegN_power s a _
@[simp] theorem State.satAdd_rst (s : State) (a n : Nat) : (s.satAdd a n).rst = s.rst := State.setRegN_rst s a _
@[simp] theorem State.satAdd_boot (s : State) (a n : Nat) : (s.satAdd a n).boot = s.boot := State.setRegN_boot s a _
@[simp] theorem State.satAdd_dict (s : State) (a n : Nat) : (s.satAdd a n).dict = s.dict := State.setRegN_dict s a _
@[simp] theorem State.satAdd_host (s : State) (a n : Nat) : (s.satAdd a n).host = s.host := State.setRegN_host s a _
@[simp] theorem State.satAdd_telem (s : State) (a n : Nat) : (s.satAdd a n).telem = s.telem := State.setRegN_telem s a _
@[simp] theorem State.satAdd_stepRest (s : State) (a n : Nat) : (s.satAdd a n).stepRest = s.stepRest := State.setRegN_stepRest s a _

@[simp] theorem State.satAddFld_pending (s : State) (a lo w n : Nat) : (s.satAddFld a lo w n).pending = s.pending := State.setFld_pending s a lo w _
@[simp] theorem State.satAddFld_freeCount (s : State) (a lo w n : Nat) : (s.satAddFld a lo w n).freeCount = s.freeCount := State.setFld_freeCount s a lo w _
@[simp] theorem State.satAddFld_reply (s : State) (a lo w n : Nat) : (s.satAddFld a lo w n).reply = s.reply := State.setFld_reply s a lo w _
@[simp] theorem State.satAddFld_pairs (s : State) (a lo w n : Nat) : (s.satAddFld a lo w n).pairs = s.pairs := State.setFld_pairs s a lo w _
@[simp] theorem State.satAddFld_onceDone (s : State) (a lo w n : Nat) : (s.satAddFld a lo w n).onceDone = s.onceDone := State.setFld_onceDone s a lo w _
@[simp] theorem State.satAddFld_mem (s : State) (a lo w n : Nat) : (s.satAddFld a lo w n).mem = s.mem := State.setFld_mem s a lo w _
@[simp] theorem State.satAddFld_cores (s : State) (a lo w n : Nat) : (s.satAddFld a lo w n).cores = s.cores := State.setFld_cores s a lo w _
@[simp] theorem State.satAddFld_roleInval (s : State) (a lo w n : Nat) : (s.satAddFld a lo w n).roleInval = s.roleInval := State.setFld_roleInval s a lo w _
@[simp] theorem State.satAddFld_pshadow (s : State) (a lo w n : Nat) : (s.satAddFld a lo w n).pshadow = s.pshadow := State.setFld_pshadow s a lo w _
@[simp] theorem State.satAddFld_pactive (s : State) (a lo w n : Nat) : (s.satAddFld a lo w n).pactive = s.pactive := State.setFld_pactive s a lo w _
@[simp] theorem State.satAddFld_badLines (s : State) (a lo w n : Nat) : (s.satAddFld a lo w n).badLines = s.badLines := State.setFld_badLines s a lo w _
@[simp] theorem State.satAddFld_ccache (s : State) (a lo w n : Nat) : (s.satAddFld a lo w n).ccache = s.ccache := State.setFld_ccache s a lo w _
@[simp] theorem State.satAddFld_wsFilled (s : State) (a lo w n : Nat) : (s.satAddFld a lo w n).wsFilled = s.wsFilled := State.setFld_wsFilled s a lo w _
@[simp] theorem State.satAddFld_pushes (s : State) (a lo w n : Nat) : (s.satAddFld a lo w n).pushes = s.pushes := State.setFld_pushes s a lo w _
@[simp] theorem State.satAddFld_notices (s : State) (a lo w n : Nat) : (s.satAddFld a lo w n).notices = s.notices := State.setFld_notices s a lo w _
@[simp] theorem State.satAddFld_weave (s : State) (a lo w n : Nat) : (s.satAddFld a lo w n).weave = s.weave := State.setFld_weave s a lo w _
@[simp] theorem State.satAddFld_events (s : State) (a lo w n : Nat) : (s.satAddFld a lo w n).events = s.events := State.setFld_events s a lo w _
@[simp] theorem State.satAddFld_hist (s : State) (a lo w n : Nat) : (s.satAddFld a lo w n).hist = s.hist := State.setFld_hist s a lo w _
@[simp] theorem State.satAddFld_histCount (s : State) (a lo w n : Nat) : (s.satAddFld a lo w n).histCount = s.histCount := State.setFld_histCount s a lo w _
@[simp] theorem State.satAddFld_jobs (s : State) (a lo w n : Nat) : (s.satAddFld a lo w n).jobs = s.jobs := State.setFld_jobs s a lo w _
@[simp] theorem State.satAddFld_ingest (s : State) (a lo w n : Nat) : (s.satAddFld a lo w n).ingest = s.ingest := State.setFld_ingest s a lo w _
@[simp] theorem State.satAddFld_vdec (s : State) (a lo w n : Nat) : (s.satAddFld a lo w n).vdec = s.vdec := State.setFld_vdec s a lo w _
@[simp] theorem State.satAddFld_isp (s : State) (a lo w n : Nat) : (s.satAddFld a lo w n).isp = s.isp := State.setFld_isp s a lo w _
@[simp] theorem State.satAddFld_dram (s : State) (a lo w n : Nat) : (s.satAddFld a lo w n).dram = s.dram := State.setFld_dram s a lo w _
@[simp] theorem State.satAddFld_power (s : State) (a lo w n : Nat) : (s.satAddFld a lo w n).power = s.power := State.setFld_power s a lo w _
@[simp] theorem State.satAddFld_rst (s : State) (a lo w n : Nat) : (s.satAddFld a lo w n).rst = s.rst := State.setFld_rst s a lo w _
@[simp] theorem State.satAddFld_boot (s : State) (a lo w n : Nat) : (s.satAddFld a lo w n).boot = s.boot := State.setFld_boot s a lo w _
@[simp] theorem State.satAddFld_dict (s : State) (a lo w n : Nat) : (s.satAddFld a lo w n).dict = s.dict := State.setFld_dict s a lo w _
@[simp] theorem State.satAddFld_host (s : State) (a lo w n : Nat) : (s.satAddFld a lo w n).host = s.host := State.setFld_host s a lo w _
@[simp] theorem State.satAddFld_telem (s : State) (a lo w n : Nat) : (s.satAddFld a lo w n).telem = s.telem := State.setFld_telem s a lo w _
@[simp] theorem State.satAddFld_stepRest (s : State) (a lo w n : Nat) : (s.satAddFld a lo w n).stepRest = s.stepRest := State.setFld_stepRest s a lo w _

@[simp] theorem State.wrapAdd_pending (s : State) (a n : Nat) : (s.wrapAdd a n).pending = s.pending := State.setRegN_pending s a _
@[simp] theorem State.wrapAdd_freeCount (s : State) (a n : Nat) : (s.wrapAdd a n).freeCount = s.freeCount := State.setRegN_freeCount s a _
@[simp] theorem State.wrapAdd_reply (s : State) (a n : Nat) : (s.wrapAdd a n).reply = s.reply := State.setRegN_reply s a _
@[simp] theorem State.wrapAdd_pairs (s : State) (a n : Nat) : (s.wrapAdd a n).pairs = s.pairs := State.setRegN_pairs s a _
@[simp] theorem State.wrapAdd_onceDone (s : State) (a n : Nat) : (s.wrapAdd a n).onceDone = s.onceDone := State.setRegN_onceDone s a _
@[simp] theorem State.wrapAdd_mem (s : State) (a n : Nat) : (s.wrapAdd a n).mem = s.mem := State.setRegN_mem s a _
@[simp] theorem State.wrapAdd_cores (s : State) (a n : Nat) : (s.wrapAdd a n).cores = s.cores := State.setRegN_cores s a _
@[simp] theorem State.wrapAdd_roleInval (s : State) (a n : Nat) : (s.wrapAdd a n).roleInval = s.roleInval := State.setRegN_roleInval s a _
@[simp] theorem State.wrapAdd_pshadow (s : State) (a n : Nat) : (s.wrapAdd a n).pshadow = s.pshadow := State.setRegN_pshadow s a _
@[simp] theorem State.wrapAdd_pactive (s : State) (a n : Nat) : (s.wrapAdd a n).pactive = s.pactive := State.setRegN_pactive s a _
@[simp] theorem State.wrapAdd_badLines (s : State) (a n : Nat) : (s.wrapAdd a n).badLines = s.badLines := State.setRegN_badLines s a _
@[simp] theorem State.wrapAdd_ccache (s : State) (a n : Nat) : (s.wrapAdd a n).ccache = s.ccache := State.setRegN_ccache s a _
@[simp] theorem State.wrapAdd_wsFilled (s : State) (a n : Nat) : (s.wrapAdd a n).wsFilled = s.wsFilled := State.setRegN_wsFilled s a _
@[simp] theorem State.wrapAdd_pushes (s : State) (a n : Nat) : (s.wrapAdd a n).pushes = s.pushes := State.setRegN_pushes s a _
@[simp] theorem State.wrapAdd_notices (s : State) (a n : Nat) : (s.wrapAdd a n).notices = s.notices := State.setRegN_notices s a _
@[simp] theorem State.wrapAdd_weave (s : State) (a n : Nat) : (s.wrapAdd a n).weave = s.weave := State.setRegN_weave s a _
@[simp] theorem State.wrapAdd_events (s : State) (a n : Nat) : (s.wrapAdd a n).events = s.events := State.setRegN_events s a _
@[simp] theorem State.wrapAdd_hist (s : State) (a n : Nat) : (s.wrapAdd a n).hist = s.hist := State.setRegN_hist s a _
@[simp] theorem State.wrapAdd_histCount (s : State) (a n : Nat) : (s.wrapAdd a n).histCount = s.histCount := State.setRegN_histCount s a _
@[simp] theorem State.wrapAdd_jobs (s : State) (a n : Nat) : (s.wrapAdd a n).jobs = s.jobs := State.setRegN_jobs s a _
@[simp] theorem State.wrapAdd_ingest (s : State) (a n : Nat) : (s.wrapAdd a n).ingest = s.ingest := State.setRegN_ingest s a _
@[simp] theorem State.wrapAdd_vdec (s : State) (a n : Nat) : (s.wrapAdd a n).vdec = s.vdec := State.setRegN_vdec s a _
@[simp] theorem State.wrapAdd_isp (s : State) (a n : Nat) : (s.wrapAdd a n).isp = s.isp := State.setRegN_isp s a _
@[simp] theorem State.wrapAdd_dram (s : State) (a n : Nat) : (s.wrapAdd a n).dram = s.dram := State.setRegN_dram s a _
@[simp] theorem State.wrapAdd_power (s : State) (a n : Nat) : (s.wrapAdd a n).power = s.power := State.setRegN_power s a _
@[simp] theorem State.wrapAdd_rst (s : State) (a n : Nat) : (s.wrapAdd a n).rst = s.rst := State.setRegN_rst s a _
@[simp] theorem State.wrapAdd_boot (s : State) (a n : Nat) : (s.wrapAdd a n).boot = s.boot := State.setRegN_boot s a _
@[simp] theorem State.wrapAdd_dict (s : State) (a n : Nat) : (s.wrapAdd a n).dict = s.dict := State.setRegN_dict s a _
@[simp] theorem State.wrapAdd_host (s : State) (a n : Nat) : (s.wrapAdd a n).host = s.host := State.setRegN_host s a _
@[simp] theorem State.wrapAdd_telem (s : State) (a n : Nat) : (s.wrapAdd a n).telem = s.telem := State.setRegN_telem s a _
@[simp] theorem State.wrapAdd_stepRest (s : State) (a n : Nat) : (s.wrapAdd a n).stepRest = s.stepRest := State.setRegN_stepRest s a _

@[simp] theorem State.wrapAdd64_pending (s : State) (a n : Nat) : (s.wrapAdd64 a n).pending = s.pending := State.setReg64_pending s a _
@[simp] theorem State.wrapAdd64_freeCount (s : State) (a n : Nat) : (s.wrapAdd64 a n).freeCount = s.freeCount := State.setReg64_freeCount s a _
@[simp] theorem State.wrapAdd64_reply (s : State) (a n : Nat) : (s.wrapAdd64 a n).reply = s.reply := State.setReg64_reply s a _
@[simp] theorem State.wrapAdd64_pairs (s : State) (a n : Nat) : (s.wrapAdd64 a n).pairs = s.pairs := State.setReg64_pairs s a _
@[simp] theorem State.wrapAdd64_onceDone (s : State) (a n : Nat) : (s.wrapAdd64 a n).onceDone = s.onceDone := State.setReg64_onceDone s a _
@[simp] theorem State.wrapAdd64_mem (s : State) (a n : Nat) : (s.wrapAdd64 a n).mem = s.mem := State.setReg64_mem s a _
@[simp] theorem State.wrapAdd64_cores (s : State) (a n : Nat) : (s.wrapAdd64 a n).cores = s.cores := State.setReg64_cores s a _
@[simp] theorem State.wrapAdd64_roleInval (s : State) (a n : Nat) : (s.wrapAdd64 a n).roleInval = s.roleInval := State.setReg64_roleInval s a _
@[simp] theorem State.wrapAdd64_pshadow (s : State) (a n : Nat) : (s.wrapAdd64 a n).pshadow = s.pshadow := State.setReg64_pshadow s a _
@[simp] theorem State.wrapAdd64_pactive (s : State) (a n : Nat) : (s.wrapAdd64 a n).pactive = s.pactive := State.setReg64_pactive s a _
@[simp] theorem State.wrapAdd64_badLines (s : State) (a n : Nat) : (s.wrapAdd64 a n).badLines = s.badLines := State.setReg64_badLines s a _
@[simp] theorem State.wrapAdd64_ccache (s : State) (a n : Nat) : (s.wrapAdd64 a n).ccache = s.ccache := State.setReg64_ccache s a _
@[simp] theorem State.wrapAdd64_wsFilled (s : State) (a n : Nat) : (s.wrapAdd64 a n).wsFilled = s.wsFilled := State.setReg64_wsFilled s a _
@[simp] theorem State.wrapAdd64_pushes (s : State) (a n : Nat) : (s.wrapAdd64 a n).pushes = s.pushes := State.setReg64_pushes s a _
@[simp] theorem State.wrapAdd64_notices (s : State) (a n : Nat) : (s.wrapAdd64 a n).notices = s.notices := State.setReg64_notices s a _
@[simp] theorem State.wrapAdd64_weave (s : State) (a n : Nat) : (s.wrapAdd64 a n).weave = s.weave := State.setReg64_weave s a _
@[simp] theorem State.wrapAdd64_events (s : State) (a n : Nat) : (s.wrapAdd64 a n).events = s.events := State.setReg64_events s a _
@[simp] theorem State.wrapAdd64_hist (s : State) (a n : Nat) : (s.wrapAdd64 a n).hist = s.hist := State.setReg64_hist s a _
@[simp] theorem State.wrapAdd64_histCount (s : State) (a n : Nat) : (s.wrapAdd64 a n).histCount = s.histCount := State.setReg64_histCount s a _
@[simp] theorem State.wrapAdd64_jobs (s : State) (a n : Nat) : (s.wrapAdd64 a n).jobs = s.jobs := State.setReg64_jobs s a _
@[simp] theorem State.wrapAdd64_ingest (s : State) (a n : Nat) : (s.wrapAdd64 a n).ingest = s.ingest := State.setReg64_ingest s a _
@[simp] theorem State.wrapAdd64_vdec (s : State) (a n : Nat) : (s.wrapAdd64 a n).vdec = s.vdec := State.setReg64_vdec s a _
@[simp] theorem State.wrapAdd64_isp (s : State) (a n : Nat) : (s.wrapAdd64 a n).isp = s.isp := State.setReg64_isp s a _
@[simp] theorem State.wrapAdd64_dram (s : State) (a n : Nat) : (s.wrapAdd64 a n).dram = s.dram := State.setReg64_dram s a _
@[simp] theorem State.wrapAdd64_power (s : State) (a n : Nat) : (s.wrapAdd64 a n).power = s.power := State.setReg64_power s a _
@[simp] theorem State.wrapAdd64_rst (s : State) (a n : Nat) : (s.wrapAdd64 a n).rst = s.rst := State.setReg64_rst s a _
@[simp] theorem State.wrapAdd64_boot (s : State) (a n : Nat) : (s.wrapAdd64 a n).boot = s.boot := State.setReg64_boot s a _
@[simp] theorem State.wrapAdd64_dict (s : State) (a n : Nat) : (s.wrapAdd64 a n).dict = s.dict := State.setReg64_dict s a _
@[simp] theorem State.wrapAdd64_host (s : State) (a n : Nat) : (s.wrapAdd64 a n).host = s.host := State.setReg64_host s a _
@[simp] theorem State.wrapAdd64_telem (s : State) (a n : Nat) : (s.wrapAdd64 a n).telem = s.telem := State.setReg64_telem s a _
@[simp] theorem State.wrapAdd64_stepRest (s : State) (a n : Nat) : (s.wrapAdd64 a n).stepRest = s.stepRest := State.setReg64_stepRest s a _

@[simp] theorem State.setCoreState_pending (s : State) (p st wait : Nat) : (s.setCoreState p st wait).pending = s.pending := (State.setFld_pending _ _ _ _ _).trans (State.setFld_pending s _ _ _ _)
@[simp] theorem State.setCoreState_freeCount (s : State) (p st wait : Nat) : (s.setCoreState p st wait).freeCount = s.freeCount := (State.setFld_freeCount _ _ _ _ _).trans (State.setFld_freeCount s _ _ _ _)
@[simp] theorem State.setCoreState_reply (s : State) (p st wait : Nat) : (s.setCoreState p st wait).reply = s.reply := (State.setFld_reply _ _ _ _ _).trans (State.setFld_reply s _ _ _ _)
@[simp] theorem State.setCoreState_pairs (s : State) (p st wait : Nat) : (s.setCoreState p st wait).pairs = s.pairs := (State.setFld_pairs _ _ _ _ _).trans (State.setFld_pairs s _ _ _ _)
@[simp] theorem State.setCoreState_onceDone (s : State) (p st wait : Nat) : (s.setCoreState p st wait).onceDone = s.onceDone := (State.setFld_onceDone _ _ _ _ _).trans (State.setFld_onceDone s _ _ _ _)
@[simp] theorem State.setCoreState_mem (s : State) (p st wait : Nat) : (s.setCoreState p st wait).mem = s.mem := (State.setFld_mem _ _ _ _ _).trans (State.setFld_mem s _ _ _ _)
@[simp] theorem State.setCoreState_cores (s : State) (p st wait : Nat) : (s.setCoreState p st wait).cores = s.cores := (State.setFld_cores _ _ _ _ _).trans (State.setFld_cores s _ _ _ _)
@[simp] theorem State.setCoreState_roleInval (s : State) (p st wait : Nat) : (s.setCoreState p st wait).roleInval = s.roleInval := (State.setFld_roleInval _ _ _ _ _).trans (State.setFld_roleInval s _ _ _ _)
@[simp] theorem State.setCoreState_pshadow (s : State) (p st wait : Nat) : (s.setCoreState p st wait).pshadow = s.pshadow := (State.setFld_pshadow _ _ _ _ _).trans (State.setFld_pshadow s _ _ _ _)
@[simp] theorem State.setCoreState_pactive (s : State) (p st wait : Nat) : (s.setCoreState p st wait).pactive = s.pactive := (State.setFld_pactive _ _ _ _ _).trans (State.setFld_pactive s _ _ _ _)
@[simp] theorem State.setCoreState_badLines (s : State) (p st wait : Nat) : (s.setCoreState p st wait).badLines = s.badLines := (State.setFld_badLines _ _ _ _ _).trans (State.setFld_badLines s _ _ _ _)
@[simp] theorem State.setCoreState_ccache (s : State) (p st wait : Nat) : (s.setCoreState p st wait).ccache = s.ccache := (State.setFld_ccache _ _ _ _ _).trans (State.setFld_ccache s _ _ _ _)
@[simp] theorem State.setCoreState_wsFilled (s : State) (p st wait : Nat) : (s.setCoreState p st wait).wsFilled = s.wsFilled := (State.setFld_wsFilled _ _ _ _ _).trans (State.setFld_wsFilled s _ _ _ _)
@[simp] theorem State.setCoreState_pushes (s : State) (p st wait : Nat) : (s.setCoreState p st wait).pushes = s.pushes := (State.setFld_pushes _ _ _ _ _).trans (State.setFld_pushes s _ _ _ _)
@[simp] theorem State.setCoreState_notices (s : State) (p st wait : Nat) : (s.setCoreState p st wait).notices = s.notices := (State.setFld_notices _ _ _ _ _).trans (State.setFld_notices s _ _ _ _)
@[simp] theorem State.setCoreState_weave (s : State) (p st wait : Nat) : (s.setCoreState p st wait).weave = s.weave := (State.setFld_weave _ _ _ _ _).trans (State.setFld_weave s _ _ _ _)
@[simp] theorem State.setCoreState_events (s : State) (p st wait : Nat) : (s.setCoreState p st wait).events = s.events := (State.setFld_events _ _ _ _ _).trans (State.setFld_events s _ _ _ _)
@[simp] theorem State.setCoreState_hist (s : State) (p st wait : Nat) : (s.setCoreState p st wait).hist = s.hist := (State.setFld_hist _ _ _ _ _).trans (State.setFld_hist s _ _ _ _)
@[simp] theorem State.setCoreState_histCount (s : State) (p st wait : Nat) : (s.setCoreState p st wait).histCount = s.histCount := (State.setFld_histCount _ _ _ _ _).trans (State.setFld_histCount s _ _ _ _)
@[simp] theorem State.setCoreState_jobs (s : State) (p st wait : Nat) : (s.setCoreState p st wait).jobs = s.jobs := (State.setFld_jobs _ _ _ _ _).trans (State.setFld_jobs s _ _ _ _)
@[simp] theorem State.setCoreState_ingest (s : State) (p st wait : Nat) : (s.setCoreState p st wait).ingest = s.ingest := (State.setFld_ingest _ _ _ _ _).trans (State.setFld_ingest s _ _ _ _)
@[simp] theorem State.setCoreState_vdec (s : State) (p st wait : Nat) : (s.setCoreState p st wait).vdec = s.vdec := (State.setFld_vdec _ _ _ _ _).trans (State.setFld_vdec s _ _ _ _)
@[simp] theorem State.setCoreState_isp (s : State) (p st wait : Nat) : (s.setCoreState p st wait).isp = s.isp := (State.setFld_isp _ _ _ _ _).trans (State.setFld_isp s _ _ _ _)
@[simp] theorem State.setCoreState_dram (s : State) (p st wait : Nat) : (s.setCoreState p st wait).dram = s.dram := (State.setFld_dram _ _ _ _ _).trans (State.setFld_dram s _ _ _ _)
@[simp] theorem State.setCoreState_power (s : State) (p st wait : Nat) : (s.setCoreState p st wait).power = s.power := (State.setFld_power _ _ _ _ _).trans (State.setFld_power s _ _ _ _)
@[simp] theorem State.setCoreState_rst (s : State) (p st wait : Nat) : (s.setCoreState p st wait).rst = s.rst := (State.setFld_rst _ _ _ _ _).trans (State.setFld_rst s _ _ _ _)
@[simp] theorem State.setCoreState_boot (s : State) (p st wait : Nat) : (s.setCoreState p st wait).boot = s.boot := (State.setFld_boot _ _ _ _ _).trans (State.setFld_boot s _ _ _ _)
@[simp] theorem State.setCoreState_dict (s : State) (p st wait : Nat) : (s.setCoreState p st wait).dict = s.dict := (State.setFld_dict _ _ _ _ _).trans (State.setFld_dict s _ _ _ _)
@[simp] theorem State.setCoreState_host (s : State) (p st wait : Nat) : (s.setCoreState p st wait).host = s.host := (State.setFld_host _ _ _ _ _).trans (State.setFld_host s _ _ _ _)
@[simp] theorem State.setCoreState_telem (s : State) (p st wait : Nat) : (s.setCoreState p st wait).telem = s.telem := (State.setFld_telem _ _ _ _ _).trans (State.setFld_telem s _ _ _ _)
@[simp] theorem State.setCoreState_stepRest (s : State) (p st wait : Nat) : (s.setCoreState p st wait).stepRest = s.stepRest := (State.setFld_stepRest _ _ _ _ _).trans (State.setFld_stepRest s _ _ _ _)

@[simp] theorem State.stickyIf_pending (s : State) (c : Bool) (a i : Nat) : (s.stickyIf c a i).pending = s.pending := by cases c; exacts [rfl, State.sticky_pending s a i]
@[simp] theorem State.stickyIf_freeCount (s : State) (c : Bool) (a i : Nat) : (s.stickyIf c a i).freeCount = s.freeCount := by cases c; exacts [rfl, State.sticky_freeCount s a i]
@[simp] theorem State.stickyIf_reply (s : State) (c : Bool) (a i : Nat) : (s.stickyIf c a i).reply = s.reply := by cases c; exacts [rfl, State.sticky_reply s a i]
@[simp] theorem State.stickyIf_pairs (s : State) (c : Bool) (a i : Nat) : (s.stickyIf c a i).pairs = s.pairs := by cases c; exacts [rfl, State.sticky_pairs s a i]
@[simp] theorem State.stickyIf_onceDone (s : State) (c : Bool) (a i : Nat) : (s.stickyIf c a i).onceDone = s.onceDone := by cases c; exacts [rfl, State.sticky_onceDone s a i]
@[simp] theorem State.stickyIf_mem (s : State) (c : Bool) (a i : Nat) : (s.stickyIf c a i).mem = s.mem := by cases c; exacts [rfl, State.sticky_mem s a i]
@[simp] theorem State.stickyIf_cores (s : State) (c : Bool) (a i : Nat) : (s.stickyIf c a i).cores = s.cores := by cases c; exacts [rfl, State.sticky_cores s a i]
@[simp] theorem State.stickyIf_roleInval (s : State) (c : Bool) (a i : Nat) : (s.stickyIf c a i).roleInval = s.roleInval := by cases c; exacts [rfl, State.sticky_roleInval s a i]
@[simp] theorem State.stickyIf_pshadow (s : State) (c : Bool) (a i : Nat) : (s.stickyIf c a i).pshadow = s.pshadow := by cases c; exacts [rfl, State.sticky_pshadow s a i]
@[simp] theorem State.stickyIf_pactive (s : State) (c : Bool) (a i : Nat) : (s.stickyIf c a i).pactive = s.pactive := by cases c; exacts [rfl, State.sticky_pactive s a i]
@[simp] theorem State.stickyIf_badLines (s : State) (c : Bool) (a i : Nat) : (s.stickyIf c a i).badLines = s.badLines := by cases c; exacts [rfl, State.sticky_badLines s a i]
@[simp] theorem State.stickyIf_ccache (s : State) (c : Bool) (a i : Nat) : (s.stickyIf c a i).ccache = s.ccache := by cases c; exacts [rfl, State.sticky_ccache s a i]
@[simp] theorem State.stickyIf_wsFilled (s : State) (c : Bool) (a i : Nat) : (s.stickyIf c a i).wsFilled = s.wsFilled := by cases c; exacts [rfl, State.sticky_wsFilled s a i]
@[simp] theorem State.stickyIf_pushes (s : State) (c : Bool) (a i : Nat) : (s.stickyIf c a i).pushes = s.pushes := by cases c; exacts [rfl, State.sticky_pushes s a i]
@[simp] theorem State.stickyIf_notices (s : State) (c : Bool) (a i : Nat) : (s.stickyIf c a i).notices = s.notices := by cases c; exacts [rfl, State.sticky_notices s a i]
@[simp] theorem State.stickyIf_weave (s : State) (c : Bool) (a i : Nat) : (s.stickyIf c a i).weave = s.weave := by cases c; exacts [rfl, State.sticky_weave s a i]
@[simp] theorem State.stickyIf_events (s : State) (c : Bool) (a i : Nat) : (s.stickyIf c a i).events = s.events := by cases c; exacts [rfl, State.sticky_events s a i]
@[simp] theorem State.stickyIf_hist (s : State) (c : Bool) (a i : Nat) : (s.stickyIf c a i).hist = s.hist := by cases c; exacts [rfl, State.sticky_hist s a i]
@[simp] theorem State.stickyIf_histCount (s : State) (c : Bool) (a i : Nat) : (s.stickyIf c a i).histCount = s.histCount := by cases c; exacts [rfl, State.sticky_histCount s a i]
@[simp] theorem State.stickyIf_jobs (s : State) (c : Bool) (a i : Nat) : (s.stickyIf c a i).jobs = s.jobs := by cases c; exacts [rfl, State.sticky_jobs s a i]
@[simp] theorem State.stickyIf_ingest (s : State) (c : Bool) (a i : Nat) : (s.stickyIf c a i).ingest = s.ingest := by cases c; exacts [rfl, State.sticky_ingest s a i]
@[simp] theorem State.stickyIf_vdec (s : State) (c : Bool) (a i : Nat) : (s.stickyIf c a i).vdec = s.vdec := by cases c; exacts [rfl, State.sticky_vdec s a i]
@[simp] theorem State.stickyIf_isp (s : State) (c : Bool) (a i : Nat) : (s.stickyIf c a i).isp = s.isp := by cases c; exacts [rfl, State.sticky_isp s a i]
@[simp] theorem State.stickyIf_dram (s : State) (c : Bool) (a i : Nat) : (s.stickyIf c a i).dram = s.dram := by cases c; exacts [rfl, State.sticky_dram s a i]
@[simp] theorem State.stickyIf_power (s : State) (c : Bool) (a i : Nat) : (s.stickyIf c a i).power = s.power := by cases c; exacts [rfl, State.sticky_power s a i]
@[simp] theorem State.stickyIf_rst (s : State) (c : Bool) (a i : Nat) : (s.stickyIf c a i).rst = s.rst := by cases c; exacts [rfl, State.sticky_rst s a i]
@[simp] theorem State.stickyIf_boot (s : State) (c : Bool) (a i : Nat) : (s.stickyIf c a i).boot = s.boot := by cases c; exacts [rfl, State.sticky_boot s a i]
@[simp] theorem State.stickyIf_dict (s : State) (c : Bool) (a i : Nat) : (s.stickyIf c a i).dict = s.dict := by cases c; exacts [rfl, State.sticky_dict s a i]
@[simp] theorem State.stickyIf_host (s : State) (c : Bool) (a i : Nat) : (s.stickyIf c a i).host = s.host := by cases c; exacts [rfl, State.sticky_host s a i]
@[simp] theorem State.stickyIf_telem (s : State) (c : Bool) (a i : Nat) : (s.stickyIf c a i).telem = s.telem := by cases c; exacts [rfl, State.sticky_telem s a i]
@[simp] theorem State.stickyIf_stepRest (s : State) (c : Bool) (a i : Nat) : (s.stickyIf c a i).stepRest = s.stepRest := by cases c; exacts [rfl, State.sticky_stepRest s a i]

@[simp] theorem State.setByte_pending (s : State) (a v : Nat) : (s.setByte a v).pending = s.pending := rfl
@[simp] theorem State.setByte_freeCount (s : State) (a v : Nat) : (s.setByte a v).freeCount = s.freeCount := rfl
@[simp] theorem State.setByte_reply (s : State) (a v : Nat) : (s.setByte a v).reply = s.reply := rfl
@[simp] theorem State.setByte_regs (s : State) (a v : Nat) : (s.setByte a v).regs = s.regs := rfl
@[simp] theorem State.setByte_pairs (s : State) (a v : Nat) : (s.setByte a v).pairs = s.pairs := rfl
@[simp] theorem State.setByte_onceDone (s : State) (a v : Nat) : (s.setByte a v).onceDone = s.onceDone := rfl
@[simp] theorem State.setByte_cores (s : State) (a v : Nat) : (s.setByte a v).cores = s.cores := rfl
@[simp] theorem State.setByte_roleInval (s : State) (a v : Nat) : (s.setByte a v).roleInval = s.roleInval := rfl
@[simp] theorem State.setByte_pshadow (s : State) (a v : Nat) : (s.setByte a v).pshadow = s.pshadow := rfl
@[simp] theorem State.setByte_pactive (s : State) (a v : Nat) : (s.setByte a v).pactive = s.pactive := rfl
@[simp] theorem State.setByte_badLines (s : State) (a v : Nat) : (s.setByte a v).badLines = s.badLines := rfl
@[simp] theorem State.setByte_ccache (s : State) (a v : Nat) : (s.setByte a v).ccache = s.ccache := rfl
@[simp] theorem State.setByte_wsFilled (s : State) (a v : Nat) : (s.setByte a v).wsFilled = s.wsFilled := rfl
@[simp] theorem State.setByte_pushes (s : State) (a v : Nat) : (s.setByte a v).pushes = s.pushes := rfl
@[simp] theorem State.setByte_notices (s : State) (a v : Nat) : (s.setByte a v).notices = s.notices := rfl
@[simp] theorem State.setByte_weave (s : State) (a v : Nat) : (s.setByte a v).weave = s.weave := rfl
@[simp] theorem State.setByte_events (s : State) (a v : Nat) : (s.setByte a v).events = s.events := rfl
@[simp] theorem State.setByte_hist (s : State) (a v : Nat) : (s.setByte a v).hist = s.hist := rfl
@[simp] theorem State.setByte_histCount (s : State) (a v : Nat) : (s.setByte a v).histCount = s.histCount := rfl
@[simp] theorem State.setByte_jobs (s : State) (a v : Nat) : (s.setByte a v).jobs = s.jobs := rfl
@[simp] theorem State.setByte_ingest (s : State) (a v : Nat) : (s.setByte a v).ingest = s.ingest := rfl
@[simp] theorem State.setByte_vdec (s : State) (a v : Nat) : (s.setByte a v).vdec = s.vdec := rfl
@[simp] theorem State.setByte_isp (s : State) (a v : Nat) : (s.setByte a v).isp = s.isp := rfl
@[simp] theorem State.setByte_dram (s : State) (a v : Nat) : (s.setByte a v).dram = s.dram := rfl
@[simp] theorem State.setByte_power (s : State) (a v : Nat) : (s.setByte a v).power = s.power := rfl
@[simp] theorem State.setByte_rst (s : State) (a v : Nat) : (s.setByte a v).rst = s.rst := rfl
@[simp] theorem State.setByte_boot (s : State) (a v : Nat) : (s.setByte a v).boot = s.boot := rfl
@[simp] theorem State.setByte_dict (s : State) (a v : Nat) : (s.setByte a v).dict = s.dict := rfl
@[simp] theorem State.setByte_host (s : State) (a v : Nat) : (s.setByte a v).host = s.host := rfl
@[simp] theorem State.setByte_telem (s : State) (a v : Nat) : (s.setByte a v).telem = s.telem := rfl
@[simp] theorem State.setByte_stepRest (s : State) (a v : Nat) : (s.setByte a v).stepRest = s.stepRest := rfl

@[simp] theorem State.clearMem_pending (s : State) (lo hi : Nat) : (s.clearMem lo hi).pending = s.pending := rfl
@[simp] theorem State.clearMem_freeCount (s : State) (lo hi : Nat) : (s.clearMem lo hi).freeCount = s.freeCount := rfl
@[simp] theorem State.clearMem_reply (s : State) (lo hi : Nat) : (s.clearMem lo hi).reply = s.reply := rfl
@[simp] theorem State.clearMem_regs (s : State) (lo hi : Nat) : (s.clearMem lo hi).regs = s.regs := rfl
@[simp] theorem State.clearMem_pairs (s : State) (lo hi : Nat) : (s.clearMem lo hi).pairs = s.pairs := rfl
@[simp] theorem State.clearMem_onceDone (s : State) (lo hi : Nat) : (s.clearMem lo hi).onceDone = s.onceDone := rfl
@[simp] theorem State.clearMem_cores (s : State) (lo hi : Nat) : (s.clearMem lo hi).cores = s.cores := rfl
@[simp] theorem State.clearMem_roleInval (s : State) (lo hi : Nat) : (s.clearMem lo hi).roleInval = s.roleInval := rfl
@[simp] theorem State.clearMem_pshadow (s : State) (lo hi : Nat) : (s.clearMem lo hi).pshadow = s.pshadow := rfl
@[simp] theorem State.clearMem_pactive (s : State) (lo hi : Nat) : (s.clearMem lo hi).pactive = s.pactive := rfl
@[simp] theorem State.clearMem_badLines (s : State) (lo hi : Nat) : (s.clearMem lo hi).badLines = s.badLines := rfl
@[simp] theorem State.clearMem_ccache (s : State) (lo hi : Nat) : (s.clearMem lo hi).ccache = s.ccache := rfl
@[simp] theorem State.clearMem_wsFilled (s : State) (lo hi : Nat) : (s.clearMem lo hi).wsFilled = s.wsFilled := rfl
@[simp] theorem State.clearMem_pushes (s : State) (lo hi : Nat) : (s.clearMem lo hi).pushes = s.pushes := rfl
@[simp] theorem State.clearMem_notices (s : State) (lo hi : Nat) : (s.clearMem lo hi).notices = s.notices := rfl
@[simp] theorem State.clearMem_weave (s : State) (lo hi : Nat) : (s.clearMem lo hi).weave = s.weave := rfl
@[simp] theorem State.clearMem_events (s : State) (lo hi : Nat) : (s.clearMem lo hi).events = s.events := rfl
@[simp] theorem State.clearMem_hist (s : State) (lo hi : Nat) : (s.clearMem lo hi).hist = s.hist := rfl
@[simp] theorem State.clearMem_histCount (s : State) (lo hi : Nat) : (s.clearMem lo hi).histCount = s.histCount := rfl
@[simp] theorem State.clearMem_jobs (s : State) (lo hi : Nat) : (s.clearMem lo hi).jobs = s.jobs := rfl
@[simp] theorem State.clearMem_ingest (s : State) (lo hi : Nat) : (s.clearMem lo hi).ingest = s.ingest := rfl
@[simp] theorem State.clearMem_vdec (s : State) (lo hi : Nat) : (s.clearMem lo hi).vdec = s.vdec := rfl
@[simp] theorem State.clearMem_isp (s : State) (lo hi : Nat) : (s.clearMem lo hi).isp = s.isp := rfl
@[simp] theorem State.clearMem_dram (s : State) (lo hi : Nat) : (s.clearMem lo hi).dram = s.dram := rfl
@[simp] theorem State.clearMem_power (s : State) (lo hi : Nat) : (s.clearMem lo hi).power = s.power := rfl
@[simp] theorem State.clearMem_rst (s : State) (lo hi : Nat) : (s.clearMem lo hi).rst = s.rst := rfl
@[simp] theorem State.clearMem_boot (s : State) (lo hi : Nat) : (s.clearMem lo hi).boot = s.boot := rfl
@[simp] theorem State.clearMem_dict (s : State) (lo hi : Nat) : (s.clearMem lo hi).dict = s.dict := rfl
@[simp] theorem State.clearMem_host (s : State) (lo hi : Nat) : (s.clearMem lo hi).host = s.host := rfl
@[simp] theorem State.clearMem_telem (s : State) (lo hi : Nat) : (s.clearMem lo hi).telem = s.telem := rfl
@[simp] theorem State.clearMem_stepRest (s : State) (lo hi : Nat) : (s.clearMem lo hi).stepRest = s.stepRest := rfl

@[simp] theorem State.setBytes_pending (s : State) (a : Nat) (l : List Nat) : (s.setBytes a l).pending = s.pending := by
  induction l generalizing s a with
  | nil => rfl
  | cons b r ih => exact (ih _ _).trans (State.setByte_pending s a b)
@[simp] theorem State.setBytes_freeCount (s : State) (a : Nat) (l : List Nat) : (s.setBytes a l).freeCount = s.freeCount := by
  induction l generalizing s a with
  | nil => rfl
  | cons b r ih => exact (ih _ _).trans (State.setByte_freeCount s a b)
@[simp] theorem State.setBytes_reply (s : State) (a : Nat) (l : List Nat) : (s.setBytes a l).reply = s.reply := by
  induction l generalizing s a with
  | nil => rfl
  | cons b r ih => exact (ih _ _).trans (State.setByte_reply s a b)
@[simp] theorem State.setBytes_regs (s : State) (a : Nat) (l : List Nat) : (s.setBytes a l).regs = s.regs := by
  induction l generalizing s a with
  | nil => rfl
  | cons b r ih => exact (ih _ _).trans (State.setByte_regs s a b)
@[simp] theorem State.setBytes_pairs (s : State) (a : Nat) (l : List Nat) : (s.setBytes a l).pairs = s.pairs := by
  induction l generalizing s a with
  | nil => rfl
  | cons b r ih => exact (ih _ _).trans (State.setByte_pairs s a b)
@[simp] theorem State.setBytes_onceDone (s : State) (a : Nat) (l : List Nat) : (s.setBytes a l).onceDone = s.onceDone := by
  induction l generalizing s a with
  | nil => rfl
  | cons b r ih => exact (ih _ _).trans (State.setByte_onceDone s a b)
@[simp] theorem State.setBytes_cores (s : State) (a : Nat) (l : List Nat) : (s.setBytes a l).cores = s.cores := by
  induction l generalizing s a with
  | nil => rfl
  | cons b r ih => exact (ih _ _).trans (State.setByte_cores s a b)
@[simp] theorem State.setBytes_roleInval (s : State) (a : Nat) (l : List Nat) : (s.setBytes a l).roleInval = s.roleInval := by
  induction l generalizing s a with
  | nil => rfl
  | cons b r ih => exact (ih _ _).trans (State.setByte_roleInval s a b)
@[simp] theorem State.setBytes_pshadow (s : State) (a : Nat) (l : List Nat) : (s.setBytes a l).pshadow = s.pshadow := by
  induction l generalizing s a with
  | nil => rfl
  | cons b r ih => exact (ih _ _).trans (State.setByte_pshadow s a b)
@[simp] theorem State.setBytes_pactive (s : State) (a : Nat) (l : List Nat) : (s.setBytes a l).pactive = s.pactive := by
  induction l generalizing s a with
  | nil => rfl
  | cons b r ih => exact (ih _ _).trans (State.setByte_pactive s a b)
@[simp] theorem State.setBytes_badLines (s : State) (a : Nat) (l : List Nat) : (s.setBytes a l).badLines = s.badLines := by
  induction l generalizing s a with
  | nil => rfl
  | cons b r ih => exact (ih _ _).trans (State.setByte_badLines s a b)
@[simp] theorem State.setBytes_ccache (s : State) (a : Nat) (l : List Nat) : (s.setBytes a l).ccache = s.ccache := by
  induction l generalizing s a with
  | nil => rfl
  | cons b r ih => exact (ih _ _).trans (State.setByte_ccache s a b)
@[simp] theorem State.setBytes_wsFilled (s : State) (a : Nat) (l : List Nat) : (s.setBytes a l).wsFilled = s.wsFilled := by
  induction l generalizing s a with
  | nil => rfl
  | cons b r ih => exact (ih _ _).trans (State.setByte_wsFilled s a b)
@[simp] theorem State.setBytes_pushes (s : State) (a : Nat) (l : List Nat) : (s.setBytes a l).pushes = s.pushes := by
  induction l generalizing s a with
  | nil => rfl
  | cons b r ih => exact (ih _ _).trans (State.setByte_pushes s a b)
@[simp] theorem State.setBytes_notices (s : State) (a : Nat) (l : List Nat) : (s.setBytes a l).notices = s.notices := by
  induction l generalizing s a with
  | nil => rfl
  | cons b r ih => exact (ih _ _).trans (State.setByte_notices s a b)
@[simp] theorem State.setBytes_weave (s : State) (a : Nat) (l : List Nat) : (s.setBytes a l).weave = s.weave := by
  induction l generalizing s a with
  | nil => rfl
  | cons b r ih => exact (ih _ _).trans (State.setByte_weave s a b)
@[simp] theorem State.setBytes_events (s : State) (a : Nat) (l : List Nat) : (s.setBytes a l).events = s.events := by
  induction l generalizing s a with
  | nil => rfl
  | cons b r ih => exact (ih _ _).trans (State.setByte_events s a b)
@[simp] theorem State.setBytes_hist (s : State) (a : Nat) (l : List Nat) : (s.setBytes a l).hist = s.hist := by
  induction l generalizing s a with
  | nil => rfl
  | cons b r ih => exact (ih _ _).trans (State.setByte_hist s a b)
@[simp] theorem State.setBytes_histCount (s : State) (a : Nat) (l : List Nat) : (s.setBytes a l).histCount = s.histCount := by
  induction l generalizing s a with
  | nil => rfl
  | cons b r ih => exact (ih _ _).trans (State.setByte_histCount s a b)
@[simp] theorem State.setBytes_jobs (s : State) (a : Nat) (l : List Nat) : (s.setBytes a l).jobs = s.jobs := by
  induction l generalizing s a with
  | nil => rfl
  | cons b r ih => exact (ih _ _).trans (State.setByte_jobs s a b)
@[simp] theorem State.setBytes_ingest (s : State) (a : Nat) (l : List Nat) : (s.setBytes a l).ingest = s.ingest := by
  induction l generalizing s a with
  | nil => rfl
  | cons b r ih => exact (ih _ _).trans (State.setByte_ingest s a b)
@[simp] theorem State.setBytes_vdec (s : State) (a : Nat) (l : List Nat) : (s.setBytes a l).vdec = s.vdec := by
  induction l generalizing s a with
  | nil => rfl
  | cons b r ih => exact (ih _ _).trans (State.setByte_vdec s a b)
@[simp] theorem State.setBytes_isp (s : State) (a : Nat) (l : List Nat) : (s.setBytes a l).isp = s.isp := by
  induction l generalizing s a with
  | nil => rfl
  | cons b r ih => exact (ih _ _).trans (State.setByte_isp s a b)
@[simp] theorem State.setBytes_dram (s : State) (a : Nat) (l : List Nat) : (s.setBytes a l).dram = s.dram := by
  induction l generalizing s a with
  | nil => rfl
  | cons b r ih => exact (ih _ _).trans (State.setByte_dram s a b)
@[simp] theorem State.setBytes_power (s : State) (a : Nat) (l : List Nat) : (s.setBytes a l).power = s.power := by
  induction l generalizing s a with
  | nil => rfl
  | cons b r ih => exact (ih _ _).trans (State.setByte_power s a b)
@[simp] theorem State.setBytes_rst (s : State) (a : Nat) (l : List Nat) : (s.setBytes a l).rst = s.rst := by
  induction l generalizing s a with
  | nil => rfl
  | cons b r ih => exact (ih _ _).trans (State.setByte_rst s a b)
@[simp] theorem State.setBytes_boot (s : State) (a : Nat) (l : List Nat) : (s.setBytes a l).boot = s.boot := by
  induction l generalizing s a with
  | nil => rfl
  | cons b r ih => exact (ih _ _).trans (State.setByte_boot s a b)
@[simp] theorem State.setBytes_dict (s : State) (a : Nat) (l : List Nat) : (s.setBytes a l).dict = s.dict := by
  induction l generalizing s a with
  | nil => rfl
  | cons b r ih => exact (ih _ _).trans (State.setByte_dict s a b)
@[simp] theorem State.setBytes_host (s : State) (a : Nat) (l : List Nat) : (s.setBytes a l).host = s.host := by
  induction l generalizing s a with
  | nil => rfl
  | cons b r ih => exact (ih _ _).trans (State.setByte_host s a b)
@[simp] theorem State.setBytes_telem (s : State) (a : Nat) (l : List Nat) : (s.setBytes a l).telem = s.telem := by
  induction l generalizing s a with
  | nil => rfl
  | cons b r ih => exact (ih _ _).trans (State.setByte_telem s a b)
@[simp] theorem State.setBytes_stepRest (s : State) (a : Nat) (l : List Nat) : (s.setBytes a l).stepRest = s.stepRest := by
  induction l generalizing s a with
  | nil => rfl
  | cons b r ih => exact (ih _ _).trans (State.setByte_stepRest s a b)

@[simp] theorem State.setLe_pending (s : State) (a n v : Nat) : (s.setLe a n v).pending = s.pending := State.setBytes_pending s a _
@[simp] theorem State.setLe_freeCount (s : State) (a n v : Nat) : (s.setLe a n v).freeCount = s.freeCount := State.setBytes_freeCount s a _
@[simp] theorem State.setLe_reply (s : State) (a n v : Nat) : (s.setLe a n v).reply = s.reply := State.setBytes_reply s a _
@[simp] theorem State.setLe_regs (s : State) (a n v : Nat) : (s.setLe a n v).regs = s.regs := State.setBytes_regs s a _
@[simp] theorem State.setLe_pairs (s : State) (a n v : Nat) : (s.setLe a n v).pairs = s.pairs := State.setBytes_pairs s a _
@[simp] theorem State.setLe_onceDone (s : State) (a n v : Nat) : (s.setLe a n v).onceDone = s.onceDone := State.setBytes_onceDone s a _
@[simp] theorem State.setLe_cores (s : State) (a n v : Nat) : (s.setLe a n v).cores = s.cores := State.setBytes_cores s a _
@[simp] theorem State.setLe_roleInval (s : State) (a n v : Nat) : (s.setLe a n v).roleInval = s.roleInval := State.setBytes_roleInval s a _
@[simp] theorem State.setLe_pshadow (s : State) (a n v : Nat) : (s.setLe a n v).pshadow = s.pshadow := State.setBytes_pshadow s a _
@[simp] theorem State.setLe_pactive (s : State) (a n v : Nat) : (s.setLe a n v).pactive = s.pactive := State.setBytes_pactive s a _
@[simp] theorem State.setLe_badLines (s : State) (a n v : Nat) : (s.setLe a n v).badLines = s.badLines := State.setBytes_badLines s a _
@[simp] theorem State.setLe_ccache (s : State) (a n v : Nat) : (s.setLe a n v).ccache = s.ccache := State.setBytes_ccache s a _
@[simp] theorem State.setLe_wsFilled (s : State) (a n v : Nat) : (s.setLe a n v).wsFilled = s.wsFilled := State.setBytes_wsFilled s a _
@[simp] theorem State.setLe_pushes (s : State) (a n v : Nat) : (s.setLe a n v).pushes = s.pushes := State.setBytes_pushes s a _
@[simp] theorem State.setLe_notices (s : State) (a n v : Nat) : (s.setLe a n v).notices = s.notices := State.setBytes_notices s a _
@[simp] theorem State.setLe_weave (s : State) (a n v : Nat) : (s.setLe a n v).weave = s.weave := State.setBytes_weave s a _
@[simp] theorem State.setLe_events (s : State) (a n v : Nat) : (s.setLe a n v).events = s.events := State.setBytes_events s a _
@[simp] theorem State.setLe_hist (s : State) (a n v : Nat) : (s.setLe a n v).hist = s.hist := State.setBytes_hist s a _
@[simp] theorem State.setLe_histCount (s : State) (a n v : Nat) : (s.setLe a n v).histCount = s.histCount := State.setBytes_histCount s a _
@[simp] theorem State.setLe_jobs (s : State) (a n v : Nat) : (s.setLe a n v).jobs = s.jobs := State.setBytes_jobs s a _
@[simp] theorem State.setLe_ingest (s : State) (a n v : Nat) : (s.setLe a n v).ingest = s.ingest := State.setBytes_ingest s a _
@[simp] theorem State.setLe_vdec (s : State) (a n v : Nat) : (s.setLe a n v).vdec = s.vdec := State.setBytes_vdec s a _
@[simp] theorem State.setLe_isp (s : State) (a n v : Nat) : (s.setLe a n v).isp = s.isp := State.setBytes_isp s a _
@[simp] theorem State.setLe_dram (s : State) (a n v : Nat) : (s.setLe a n v).dram = s.dram := State.setBytes_dram s a _
@[simp] theorem State.setLe_power (s : State) (a n v : Nat) : (s.setLe a n v).power = s.power := State.setBytes_power s a _
@[simp] theorem State.setLe_rst (s : State) (a n v : Nat) : (s.setLe a n v).rst = s.rst := State.setBytes_rst s a _
@[simp] theorem State.setLe_boot (s : State) (a n v : Nat) : (s.setLe a n v).boot = s.boot := State.setBytes_boot s a _
@[simp] theorem State.setLe_dict (s : State) (a n v : Nat) : (s.setLe a n v).dict = s.dict := State.setBytes_dict s a _
@[simp] theorem State.setLe_host (s : State) (a n v : Nat) : (s.setLe a n v).host = s.host := State.setBytes_host s a _
@[simp] theorem State.setLe_telem (s : State) (a n v : Nat) : (s.setLe a n v).telem = s.telem := State.setBytes_telem s a _
@[simp] theorem State.setLe_stepRest (s : State) (a n v : Nat) : (s.setLe a n v).stepRest = s.stepRest := State.setBytes_stepRest s a _

@[simp] theorem State.setCore_pending (s : State) (p : Nat) (c : Core) : (s.setCore p c).pending = s.pending := rfl
@[simp] theorem State.setCore_freeCount (s : State) (p : Nat) (c : Core) : (s.setCore p c).freeCount = s.freeCount := rfl
@[simp] theorem State.setCore_reply (s : State) (p : Nat) (c : Core) : (s.setCore p c).reply = s.reply := rfl
@[simp] theorem State.setCore_regs (s : State) (p : Nat) (c : Core) : (s.setCore p c).regs = s.regs := rfl
@[simp] theorem State.setCore_pairs (s : State) (p : Nat) (c : Core) : (s.setCore p c).pairs = s.pairs := rfl
@[simp] theorem State.setCore_onceDone (s : State) (p : Nat) (c : Core) : (s.setCore p c).onceDone = s.onceDone := rfl
@[simp] theorem State.setCore_mem (s : State) (p : Nat) (c : Core) : (s.setCore p c).mem = s.mem := rfl
@[simp] theorem State.setCore_roleInval (s : State) (p : Nat) (c : Core) : (s.setCore p c).roleInval = s.roleInval := rfl
@[simp] theorem State.setCore_pshadow (s : State) (p : Nat) (c : Core) : (s.setCore p c).pshadow = s.pshadow := rfl
@[simp] theorem State.setCore_pactive (s : State) (p : Nat) (c : Core) : (s.setCore p c).pactive = s.pactive := rfl
@[simp] theorem State.setCore_badLines (s : State) (p : Nat) (c : Core) : (s.setCore p c).badLines = s.badLines := rfl
@[simp] theorem State.setCore_ccache (s : State) (p : Nat) (c : Core) : (s.setCore p c).ccache = s.ccache := rfl
@[simp] theorem State.setCore_wsFilled (s : State) (p : Nat) (c : Core) : (s.setCore p c).wsFilled = s.wsFilled := rfl
@[simp] theorem State.setCore_pushes (s : State) (p : Nat) (c : Core) : (s.setCore p c).pushes = s.pushes := rfl
@[simp] theorem State.setCore_notices (s : State) (p : Nat) (c : Core) : (s.setCore p c).notices = s.notices := rfl
@[simp] theorem State.setCore_weave (s : State) (p : Nat) (c : Core) : (s.setCore p c).weave = s.weave := rfl
@[simp] theorem State.setCore_events (s : State) (p : Nat) (c : Core) : (s.setCore p c).events = s.events := rfl
@[simp] theorem State.setCore_hist (s : State) (p : Nat) (c : Core) : (s.setCore p c).hist = s.hist := rfl
@[simp] theorem State.setCore_histCount (s : State) (p : Nat) (c : Core) : (s.setCore p c).histCount = s.histCount := rfl
@[simp] theorem State.setCore_jobs (s : State) (p : Nat) (c : Core) : (s.setCore p c).jobs = s.jobs := rfl
@[simp] theorem State.setCore_ingest (s : State) (p : Nat) (c : Core) : (s.setCore p c).ingest = s.ingest := rfl
@[simp] theorem State.setCore_vdec (s : State) (p : Nat) (c : Core) : (s.setCore p c).vdec = s.vdec := rfl
@[simp] theorem State.setCore_isp (s : State) (p : Nat) (c : Core) : (s.setCore p c).isp = s.isp := rfl
@[simp] theorem State.setCore_dram (s : State) (p : Nat) (c : Core) : (s.setCore p c).dram = s.dram := rfl
@[simp] theorem State.setCore_power (s : State) (p : Nat) (c : Core) : (s.setCore p c).power = s.power := rfl
@[simp] theorem State.setCore_rst (s : State) (p : Nat) (c : Core) : (s.setCore p c).rst = s.rst := rfl
@[simp] theorem State.setCore_boot (s : State) (p : Nat) (c : Core) : (s.setCore p c).boot = s.boot := rfl
@[simp] theorem State.setCore_dict (s : State) (p : Nat) (c : Core) : (s.setCore p c).dict = s.dict := rfl
@[simp] theorem State.setCore_host (s : State) (p : Nat) (c : Core) : (s.setCore p c).host = s.host := rfl
@[simp] theorem State.setCore_telem (s : State) (p : Nat) (c : Core) : (s.setCore p c).telem = s.telem := rfl
@[simp] theorem State.setCore_stepRest (s : State) (p : Nat) (c : Core) : (s.setCore p c).stepRest = s.stepRest := rfl

@[simp] theorem State.modCore_pending (s : State) (p : Nat) (f : Core → Core) : (s.modCore p f).pending = s.pending := State.setCore_pending s p _
@[simp] theorem State.modCore_freeCount (s : State) (p : Nat) (f : Core → Core) : (s.modCore p f).freeCount = s.freeCount := State.setCore_freeCount s p _
@[simp] theorem State.modCore_reply (s : State) (p : Nat) (f : Core → Core) : (s.modCore p f).reply = s.reply := State.setCore_reply s p _
@[simp] theorem State.modCore_regs (s : State) (p : Nat) (f : Core → Core) : (s.modCore p f).regs = s.regs := State.setCore_regs s p _
@[simp] theorem State.modCore_pairs (s : State) (p : Nat) (f : Core → Core) : (s.modCore p f).pairs = s.pairs := State.setCore_pairs s p _
@[simp] theorem State.modCore_onceDone (s : State) (p : Nat) (f : Core → Core) : (s.modCore p f).onceDone = s.onceDone := State.setCore_onceDone s p _
@[simp] theorem State.modCore_mem (s : State) (p : Nat) (f : Core → Core) : (s.modCore p f).mem = s.mem := State.setCore_mem s p _
@[simp] theorem State.modCore_roleInval (s : State) (p : Nat) (f : Core → Core) : (s.modCore p f).roleInval = s.roleInval := State.setCore_roleInval s p _
@[simp] theorem State.modCore_pshadow (s : State) (p : Nat) (f : Core → Core) : (s.modCore p f).pshadow = s.pshadow := State.setCore_pshadow s p _
@[simp] theorem State.modCore_pactive (s : State) (p : Nat) (f : Core → Core) : (s.modCore p f).pactive = s.pactive := State.setCore_pactive s p _
@[simp] theorem State.modCore_badLines (s : State) (p : Nat) (f : Core → Core) : (s.modCore p f).badLines = s.badLines := State.setCore_badLines s p _
@[simp] theorem State.modCore_ccache (s : State) (p : Nat) (f : Core → Core) : (s.modCore p f).ccache = s.ccache := State.setCore_ccache s p _
@[simp] theorem State.modCore_wsFilled (s : State) (p : Nat) (f : Core → Core) : (s.modCore p f).wsFilled = s.wsFilled := State.setCore_wsFilled s p _
@[simp] theorem State.modCore_pushes (s : State) (p : Nat) (f : Core → Core) : (s.modCore p f).pushes = s.pushes := State.setCore_pushes s p _
@[simp] theorem State.modCore_notices (s : State) (p : Nat) (f : Core → Core) : (s.modCore p f).notices = s.notices := State.setCore_notices s p _
@[simp] theorem State.modCore_weave (s : State) (p : Nat) (f : Core → Core) : (s.modCore p f).weave = s.weave := State.setCore_weave s p _
@[simp] theorem State.modCore_events (s : State) (p : Nat) (f : Core → Core) : (s.modCore p f).events = s.events := State.setCore_events s p _
@[simp] theorem State.modCore_hist (s : State) (p : Nat) (f : Core → Core) : (s.modCore p f).hist = s.hist := State.setCore_hist s p _
@[simp] theorem State.modCore_histCount (s : State) (p : Nat) (f : Core → Core) : (s.modCore p f).histCount = s.histCount := State.setCore_histCount s p _
@[simp] theorem State.modCore_jobs (s : State) (p : Nat) (f : Core → Core) : (s.modCore p f).jobs = s.jobs := State.setCore_jobs s p _
@[simp] theorem State.modCore_ingest (s : State) (p : Nat) (f : Core → Core) : (s.modCore p f).ingest = s.ingest := State.setCore_ingest s p _
@[simp] theorem State.modCore_vdec (s : State) (p : Nat) (f : Core → Core) : (s.modCore p f).vdec = s.vdec := State.setCore_vdec s p _
@[simp] theorem State.modCore_isp (s : State) (p : Nat) (f : Core → Core) : (s.modCore p f).isp = s.isp := State.setCore_isp s p _
@[simp] theorem State.modCore_dram (s : State) (p : Nat) (f : Core → Core) : (s.modCore p f).dram = s.dram := State.setCore_dram s p _
@[simp] theorem State.modCore_power (s : State) (p : Nat) (f : Core → Core) : (s.modCore p f).power = s.power := State.setCore_power s p _
@[simp] theorem State.modCore_rst (s : State) (p : Nat) (f : Core → Core) : (s.modCore p f).rst = s.rst := State.setCore_rst s p _
@[simp] theorem State.modCore_boot (s : State) (p : Nat) (f : Core → Core) : (s.modCore p f).boot = s.boot := State.setCore_boot s p _
@[simp] theorem State.modCore_dict (s : State) (p : Nat) (f : Core → Core) : (s.modCore p f).dict = s.dict := State.setCore_dict s p _
@[simp] theorem State.modCore_host (s : State) (p : Nat) (f : Core → Core) : (s.modCore p f).host = s.host := State.setCore_host s p _
@[simp] theorem State.modCore_telem (s : State) (p : Nat) (f : Core → Core) : (s.modCore p f).telem = s.telem := State.setCore_telem s p _
@[simp] theorem State.modCore_stepRest (s : State) (p : Nat) (f : Core → Core) : (s.modCore p f).stepRest = s.stepRest := State.setCore_stepRest s p _

@[simp] theorem State.free_pending (s : State) (w : Nat) : (s.free w).2.pending = s.pending := rfl
@[simp] theorem State.free_reply (s : State) (w : Nat) : (s.free w).2.reply = s.reply := rfl
@[simp] theorem State.free_regs (s : State) (w : Nat) : (s.free w).2.regs = s.regs := rfl
@[simp] theorem State.free_pairs (s : State) (w : Nat) : (s.free w).2.pairs = s.pairs := rfl
@[simp] theorem State.free_onceDone (s : State) (w : Nat) : (s.free w).2.onceDone = s.onceDone := rfl
@[simp] theorem State.free_mem (s : State) (w : Nat) : (s.free w).2.mem = s.mem := rfl
@[simp] theorem State.free_cores (s : State) (w : Nat) : (s.free w).2.cores = s.cores := rfl
@[simp] theorem State.free_roleInval (s : State) (w : Nat) : (s.free w).2.roleInval = s.roleInval := rfl
@[simp] theorem State.free_pshadow (s : State) (w : Nat) : (s.free w).2.pshadow = s.pshadow := rfl
@[simp] theorem State.free_pactive (s : State) (w : Nat) : (s.free w).2.pactive = s.pactive := rfl
@[simp] theorem State.free_badLines (s : State) (w : Nat) : (s.free w).2.badLines = s.badLines := rfl
@[simp] theorem State.free_ccache (s : State) (w : Nat) : (s.free w).2.ccache = s.ccache := rfl
@[simp] theorem State.free_wsFilled (s : State) (w : Nat) : (s.free w).2.wsFilled = s.wsFilled := rfl
@[simp] theorem State.free_pushes (s : State) (w : Nat) : (s.free w).2.pushes = s.pushes := rfl
@[simp] theorem State.free_notices (s : State) (w : Nat) : (s.free w).2.notices = s.notices := rfl
@[simp] theorem State.free_weave (s : State) (w : Nat) : (s.free w).2.weave = s.weave := rfl
@[simp] theorem State.free_events (s : State) (w : Nat) : (s.free w).2.events = s.events := rfl
@[simp] theorem State.free_hist (s : State) (w : Nat) : (s.free w).2.hist = s.hist := rfl
@[simp] theorem State.free_histCount (s : State) (w : Nat) : (s.free w).2.histCount = s.histCount := rfl
@[simp] theorem State.free_jobs (s : State) (w : Nat) : (s.free w).2.jobs = s.jobs := rfl
@[simp] theorem State.free_ingest (s : State) (w : Nat) : (s.free w).2.ingest = s.ingest := rfl
@[simp] theorem State.free_vdec (s : State) (w : Nat) : (s.free w).2.vdec = s.vdec := rfl
@[simp] theorem State.free_isp (s : State) (w : Nat) : (s.free w).2.isp = s.isp := rfl
@[simp] theorem State.free_dram (s : State) (w : Nat) : (s.free w).2.dram = s.dram := rfl
@[simp] theorem State.free_power (s : State) (w : Nat) : (s.free w).2.power = s.power := rfl
@[simp] theorem State.free_rst (s : State) (w : Nat) : (s.free w).2.rst = s.rst := rfl
@[simp] theorem State.free_boot (s : State) (w : Nat) : (s.free w).2.boot = s.boot := rfl
@[simp] theorem State.free_dict (s : State) (w : Nat) : (s.free w).2.dict = s.dict := rfl
@[simp] theorem State.free_host (s : State) (w : Nat) : (s.free w).2.host = s.host := rfl
@[simp] theorem State.free_telem (s : State) (w : Nat) : (s.free w).2.telem = s.telem := rfl
@[simp] theorem State.free_stepRest (s : State) (w : Nat) : (s.free w).2.stepRest = s.stepRest := rfl


end Sys2Proof.Machine
end

