-- ==== Sys2Proof/Laws/Tbl.lean ====
section
/-! SUPPORT. The laws of sparse tables: what a key reads as after each operation, and that each operation keeps the canonical
form. -/

namespace Sys2Proof.Machine

variable {α : Type}

theorem Tbl.find_erase (k j : Nat) (t : Tbl α) : Tbl.find j (Tbl.erase k t) = if j = k then none else Tbl.find j t := by
  induction t with
  | nil => simp [Tbl.erase, Tbl.find]
  | cons e r ih =>
    obtain ⟨i, v⟩ := e
    by_cases hi : i = k
    · subst hi
      by_cases hj : j = i
      · subst hj; simpa [Tbl.erase] using ih
      · simp [Tbl.erase, Tbl.find, ih, hj, Ne.symm hj]
    · by_cases hj : i = j
      · subst hj; simp [Tbl.erase, Tbl.find, hi]
      · simp [Tbl.erase, Tbl.find, hi, hj, ih]

theorem Tbl.find_insert (k j : Nat) (v : α) (t : Tbl α) :
    Tbl.find j (Tbl.insert k v t) = if j = k then some v else Tbl.find j t := by
  induction t with
  | nil => by_cases h : j = k <;> simp [Tbl.insert, Tbl.find, h, eq_comm (a := k)]
  | cons e r ih =>
    obtain ⟨i, w⟩ := e
    by_cases hk : k < i
    · by_cases h : j = k
      · simp [Tbl.insert, Tbl.find, hk, h]
      · simp [Tbl.insert, Tbl.find, hk, h, Ne.symm h]
    · by_cases hi : i = k
      · subst hi
        by_cases h : j = i
        · simp [Tbl.insert, Tbl.find, h]
        · simp [Tbl.insert, Tbl.find, h, Ne.symm h]
      · by_cases h : i = j
        · subst h; simp [Tbl.insert, Tbl.find, hk, hi]
        · simp [Tbl.insert, Tbl.find, hk, hi, h, ih]

/-- Read after write: the key written reads as the value written, every other key as before. -/
@[simp] theorem Tbl.get_set [DecidableEq α] (d : Nat → α) (t : Tbl α) (k j : Nat) (v : α) :
    Tbl.get d (Tbl.set d t k v) j = if j = k then v else Tbl.get d t j := by
  by_cases hv : v = d k
  · by_cases h : j = k
    · subst h; simp [Tbl.set, Tbl.get, Tbl.find_erase, hv]
    · simp [Tbl.set, Tbl.get, Tbl.find_erase, hv, h]
  · by_cases h : j = k
    · subst h; simp [Tbl.set, Tbl.get, Tbl.find_insert, hv]
    · simp [Tbl.set, Tbl.get, Tbl.find_insert, hv, h]

theorem Tbl.find_clear (lo hi j : Nat) (t : Tbl α) :
    Tbl.find j (Tbl.clear lo hi t) = if lo ≤ j ∧ j < hi then none else Tbl.find j t := by
  induction t with
  | nil => simp [Tbl.clear, Tbl.find]
  | cons e r ih =>
    obtain ⟨i, v⟩ := e
    by_cases hc : lo ≤ i ∧ i < hi
    · by_cases hj : i = j
      · subst hj; simp [Tbl.clear, hc, ih]
      · simp [Tbl.clear, Tbl.find, hc, hj, ih]
    · by_cases hj : i = j
      · subst hj
        rw [Tbl.clear, if_neg hc, if_neg hc]; simp [Tbl.find]
      · rw [Tbl.clear, if_neg hc]; simp [Tbl.find, hj, ih]

/-- A cleared range reads as its defaults, every other key as before. -/
@[simp] theorem Tbl.get_clear (d : Nat → α) (lo hi j : Nat) (t : Tbl α) :
    Tbl.get d (Tbl.clear lo hi t) j = if lo ≤ j ∧ j < hi then d j else Tbl.get d t j := by
  by_cases h : lo ≤ j ∧ j < hi <;> simp [Tbl.get, Tbl.find_clear, h]

/-! ### The canonical form -/

/-- The bound of a canonical table may fall. -/
theorem Tbl.wfFrom_weaken [DecidableEq α] (d : Nat → α) (t : Tbl α) (b c : Option Nat)
    (h : Tbl.wfFrom d b t = true) (hbc : ∀ m, c = some m → ∃ n, b = some n ∧ m ≤ n) : Tbl.wfFrom d c t = true := by
  cases t with
  | nil => rfl
  | cons e r =>
    obtain ⟨i, v⟩ := e
    cases c with
    | none => cases b <;> simp_all [Tbl.wfFrom]
    | some m =>
      obtain ⟨n, rfl, hmn⟩ := hbc m rfl
      simp only [Tbl.wfFrom, Bool.and_eq_true, decide_eq_true_eq] at h ⊢
      exact ⟨⟨by omega, h.1.2⟩, h.2⟩

theorem Tbl.wfFrom_erase [DecidableEq α] (d : Nat → α) (k : Nat) (t : Tbl α) (b : Option Nat)
    (h : Tbl.wfFrom d b t = true) : Tbl.wfFrom d b (Tbl.erase k t) = true := by
  induction t generalizing b with
  | nil => exact h
  | cons e r ih =>
    obtain ⟨i, v⟩ := e
    simp only [Tbl.wfFrom, Bool.and_eq_true] at h
    by_cases hi : i = k
    · simp only [Tbl.erase, hi, if_true]
      refine ih b (Tbl.wfFrom_weaken d r (some i) b h.2 fun m hm => ⟨i, rfl, ?_⟩)
      subst hm; have := h.1.1; simp at this; omega
    · simp only [Tbl.erase, hi, if_false, Tbl.wfFrom, Bool.and_eq_true]
      exact ⟨h.1, ih _ h.2⟩

theorem Tbl.wfFrom_clear [DecidableEq α] (d : Nat → α) (lo hi : Nat) (t : Tbl α) (b : Option Nat)
    (h : Tbl.wfFrom d b t = true) : Tbl.wfFrom d b (Tbl.clear lo hi t) = true := by
  induction t generalizing b with
  | nil => exact h
  | cons e r ih =>
    obtain ⟨i, v⟩ := e
    simp only [Tbl.wfFrom, Bool.and_eq_true] at h
    by_cases hi : lo ≤ i ∧ i < hi
    · rw [Tbl.clear, if_pos hi]
      refine ih b (Tbl.wfFrom_weaken d r (some i) b h.2 fun m hm => ⟨i, rfl, ?_⟩)
      subst hm; have := h.1.1; simp at this; omega
    · rw [Tbl.clear, if_neg hi]
      simp only [Tbl.wfFrom, Bool.and_eq_true]
      exact ⟨h.1, ih _ h.2⟩

theorem Tbl.wfFrom_insert_some [DecidableEq α] (d : Nat → α) (k : Nat) (v : α) (hv : v ≠ d k) (t : Tbl α) (m : Nat)
    (hm : m < k) (h : Tbl.wfFrom d (some m) t = true) : Tbl.wfFrom d (some m) (Tbl.insert k v t) = true := by
  induction t generalizing m with
  | nil => simp [Tbl.insert, Tbl.wfFrom, hv, hm]
  | cons e r ih =>
    obtain ⟨i, w⟩ := e
    simp only [Tbl.wfFrom, Bool.and_eq_true, decide_eq_true_eq] at h
    by_cases hk : k < i
    · simp [Tbl.insert, hk, Tbl.wfFrom, hm, hv, h.1.2, h.2]
    · by_cases hi : i = k
      · subst hi
        simp [Tbl.insert, Tbl.wfFrom, hm, hv, h.2]
      · have hik : i < k := by omega
        simp only [Tbl.insert, hk, hi, if_false, Tbl.wfFrom, Bool.and_eq_true, decide_eq_true_eq]
        exact ⟨h.1, ih i hik h.2⟩

theorem Tbl.wfFrom_insert [DecidableEq α] (d : Nat → α) (k : Nat) (v : α) (hv : v ≠ d k) (t : Tbl α)
    (h : Tbl.wfFrom d none t = true) : Tbl.wfFrom d none (Tbl.insert k v t) = true := by
  cases t with
  | nil => simp [Tbl.insert, Tbl.wfFrom, hv]
  | cons e r =>
    obtain ⟨i, w⟩ := e
    simp only [Tbl.wfFrom, Bool.and_eq_true, decide_eq_true_eq] at h
    by_cases hk : k < i
    · simp [Tbl.insert, hk, Tbl.wfFrom, hv, h.1.2, h.2]
    · by_cases hi : i = k
      · subst hi
        simp [Tbl.insert, Tbl.wfFrom, hv, h.2]
      · have hik : i < k := by omega
        simp only [Tbl.insert, hk, hi, if_false, Tbl.wfFrom, Bool.and_eq_true, decide_eq_true_eq]
        exact ⟨h.1, Tbl.wfFrom_insert_some d k v hv r i hik h.2⟩

/-- A write keeps the canonical form. -/
theorem Tbl.wf_set [DecidableEq α] (d : Nat → α) (t : Tbl α) (k : Nat) (v : α) (h : Tbl.wf d t = true) :
    Tbl.wf d (Tbl.set d t k v) = true := by
  unfold Tbl.set Tbl.wf
  split
  · exact Tbl.wfFrom_erase d k t none h
  · rename_i hv; exact Tbl.wfFrom_insert d k v hv t h

/-- Clearing a range keeps the canonical form. -/
theorem Tbl.wf_clear [DecidableEq α] (d : Nat → α) (lo hi : Nat) (t : Tbl α) (h : Tbl.wf d t = true) :
    Tbl.wf d (Tbl.clear lo hi t) = true := Tbl.wfFrom_clear d lo hi t none h

end Sys2Proof.Machine
end

