-- ==== Sys2Proof/Laws/Ops.lean ====
section
/-! SUPPORT. What registers, memory and cores read as after each named operation, and that memory keeps its canonical form. -/

namespace Sys2Proof.Machine

/-! ### Bit fields -/

theorem field_lt (v lo w : Nat) : field v lo w < 2 ^ w := Nat.mod_lt _ (Nat.two_pow_pos w)

/-- A number is what lies above a field, the field and what lies below it. -/
theorem field_split (v lo w : Nat) : v = v / 2 ^ (lo + w) * 2 ^ (lo + w) + field v lo w * 2 ^ lo + v % 2 ^ lo := by
  have h1 := Nat.div_add_mod v (2 ^ lo)
  have h2 := Nat.div_add_mod (v / 2 ^ lo) (2 ^ w)
  have h3 : v / 2 ^ lo / 2 ^ w = v / 2 ^ (lo + w) := by rw [Nat.div_div_eq_div_mul, pow_add]
  have h4 : 2 ^ (lo + w) = 2 ^ lo * 2 ^ w := pow_add 2 lo w
  rw [h3] at h2
  unfold field
  calc v = 2 ^ lo * (v / 2 ^ lo) + v % 2 ^ lo := h1.symm
    _ = 2 ^ lo * (2 ^ w * (v / 2 ^ (lo + w)) + v / 2 ^ lo % 2 ^ w) + v % 2 ^ lo := by rw [h2]
    _ = _ := by rw [h4]; ring

/-- A number after a field is replaced. -/
theorem putField_eq (v lo w x : Nat) :
    putField v lo w x = v / 2 ^ (lo + w) * 2 ^ (lo + w) + x % 2 ^ w * 2 ^ lo + v % 2 ^ lo := by
  have h := field_split v lo w
  unfold putField
  omega

/-- The field that was written reads as its low bits. -/
@[simp] theorem field_putField (v lo w x : Nat) : field (putField v lo w x) lo w = x % 2 ^ w := by
  rw [putField_eq]
  unfold field
  have h4 : 2 ^ (lo + w) = 2 ^ w * 2 ^ lo := by rw [pow_add, mul_comm]
  have e : v / 2 ^ (lo + w) * 2 ^ (lo + w) + x % 2 ^ w * 2 ^ lo + v % 2 ^ lo
      = v % 2 ^ lo + 2 ^ lo * (v / 2 ^ (lo + w) * 2 ^ w + x % 2 ^ w) := by rw [h4]; ring
  rw [e, Nat.add_mul_div_left _ _ (Nat.two_pow_pos lo), Nat.div_eq_of_lt (Nat.mod_lt _ (Nat.two_pow_pos lo)), zero_add,
    mul_comm (v / _), Nat.mul_add_mod, Nat.mod_mod]

/-- A field and what lies below it stay below the bits above the field. -/
theorem below_lt (v lo w x : Nat) : x % 2 ^ w * 2 ^ lo + v % 2 ^ lo < 2 ^ (lo + w) := by
  have h2 := Nat.mod_lt v (Nat.two_pow_pos lo)
  have h1 := Nat.mul_le_mul_right (2 ^ lo) (Nat.succ_le_of_lt (Nat.mod_lt x (Nat.two_pow_pos w)))
  have h4 : 2 ^ (lo + w) = 2 ^ w * 2 ^ lo := by rw [pow_add, mul_comm]
  rw [Nat.succ_mul] at h1
  omega

/-- A field that lies above the one written is unchanged. -/
theorem field_putField_above (v lo w x l u : Nat) (h : lo + w ≤ l) : field (putField v lo w x) l u = field v l u := by
  have e : putField v lo w x / 2 ^ (lo + w) = v / 2 ^ (lo + w) := by
    rw [putField_eq]
    have hx := below_lt v lo w x
    rw [add_assoc, mul_comm, Nat.mul_add_div (Nat.two_pow_pos _), Nat.div_eq_of_lt hx, add_zero]
  unfold field
  obtain ⟨k, rfl⟩ := Nat.exists_eq_add_of_le h
  rw [pow_add, ← Nat.div_div_eq_div_mul, e, Nat.div_div_eq_div_mul]

/-- A field that lies below the one written is unchanged. -/
theorem field_putField_below (v lo w x l u : Nat) (h : l + u ≤ lo) : field (putField v lo w x) l u = field v l u := by
  have e : putField v lo w x % 2 ^ lo = v % 2 ^ lo := by
    rw [putField_eq]
    have h4 : 2 ^ (lo + w) = 2 ^ w * 2 ^ lo := by rw [pow_add, mul_comm]
    have e2 : v / 2 ^ (lo + w) * 2 ^ (lo + w) + x % 2 ^ w * 2 ^ lo + v % 2 ^ lo
        = v % 2 ^ lo + 2 ^ lo * (v / 2 ^ (lo + w) * 2 ^ w + x % 2 ^ w) := by rw [h4]; ring
    rw [e2, Nat.add_mul_mod_self_left, Nat.mod_mod]
  have f : ∀ a : Nat, field a l u = a % 2 ^ lo / 2 ^ l % 2 ^ u := by
    intro a
    obtain ⟨k, rfl⟩ := Nat.exists_eq_add_of_le h
    unfold field
    rw [show l + u + k = l + (u + k) by omega, pow_add 2 l, Nat.mod_mul_right_div_self, pow_add 2 u, Nat.mod_mul_right_mod]
  rw [f, f, e]

/-- A field of a word written stays a word. -/
theorem putField_lt (v lo w x : Nat) (hv : v < 2 ^ 32) (h : lo + w ≤ 32) : putField v lo w x < 2 ^ 32 := by
  have hx := below_lt v lo w x
  have hd : v / 2 ^ (lo + w) + 1 ≤ 2 ^ (32 - (lo + w)) := by
    have : v / 2 ^ (lo + w) < 2 ^ (32 - (lo + w)) := by
      rw [Nat.div_lt_iff_lt_mul (Nat.two_pow_pos _), ← pow_add]
      rwa [show 32 - (lo + w) + (lo + w) = 32 by omega]
    omega
  have e : 2 ^ 32 = 2 ^ (32 - (lo + w)) * 2 ^ (lo + w) := by
    rw [← pow_add, show 32 - (lo + w) + (lo + w) = 32 by omega]
  rw [putField_eq, e]
  nlinarith [Nat.mul_le_mul_right (2 ^ (lo + w)) hd]

/-! ### Registers -/

/-- A register that was written reads as the value written, every other register as before. -/
@[simp] theorem State.reg_setReg (s : State) (a b : Nat) (v : Word) : (s.setReg a v).reg b = if b = a then v else s.reg b :=
  Tbl.get_set Reg.resetValue s.regs a b v

theorem State.regN_lt (s : State) (a : Nat) : s.regN a < 2 ^ 32 := (s.reg a).isLt

@[simp] theorem State.regN_setReg (s : State) (a b : Nat) (v : Word) :
    (s.setReg a v).regN b = if b = a then v.toNat else s.regN b := by
  unfold State.regN; rw [State.reg_setReg]; split <;> rfl

@[simp] theorem State.reg_setRegN (s : State) (a b v : Nat) :
    (s.setRegN a v).reg b = if b = a then BitVec.ofNat 32 v else s.reg b := State.reg_setReg s a b _

@[simp] theorem State.regN_setRegN (s : State) (a b v : Nat) :
    (s.setRegN a v).regN b = if b = a then v % 2 ^ 32 else s.regN b := by
  unfold State.setRegN; rw [State.regN_setReg, BitVec.toNat_ofNat]

/-- A field write leaves every other register. -/
theorem State.regN_setFld_ne (s : State) (a b lo w v : Nat) (h : b ≠ a) : (s.setFld a lo w v).regN b = s.regN b := by
  simp [State.setFld, h]

theorem State.regN_setFld_self (s : State) (a lo w v : Nat) (h : lo + w ≤ 32) :
    (s.setFld a lo w v).regN a = putField (s.regN a) lo w v := by
  simp only [State.setFld, State.regN_setRegN, if_true]
  exact Nat.mod_eq_of_lt (putField_lt _ _ _ _ (State.regN_lt s a) h)

/-- The field written reads as its low bits. -/
theorem State.fld_setFld (s : State) (a lo w v : Nat) (h : lo + w ≤ 32) : (s.setFld a lo w v).fld a lo w = v % 2 ^ w := by
  unfold State.fld; rw [State.regN_setFld_self s a lo w v h, field_putField]

/-- Every other field of the register is unchanged. -/
theorem State.fld_setFld_disjoint (s : State) (a lo w v l u : Nat) (h : lo + w ≤ 32) (d : l + u ≤ lo ∨ lo + w ≤ l) :
    (s.setFld a lo w v).fld a l u = s.fld a l u := by
  unfold State.fld; rw [State.regN_setFld_self s a lo w v h]
  rcases d with d | d
  · exact field_putField_below _ _ _ _ _ _ d
  · exact field_putField_above _ _ _ _ _ _ d

theorem State.fld_setFld_ne (s : State) (a b lo w v l u : Nat) (h : b ≠ a) : (s.setFld a lo w v).fld b l u = s.fld b l u := by
  unfold State.fld; rw [State.regN_setFld_ne s a b lo w v h]

/-- A saturating counter never passes all ones (R17). -/
theorem State.regN_satAdd (s : State) (a n : Nat) : (s.satAdd a n).regN a = min (s.regN a + n) 0xFFFFFFFF := by
  simp only [State.satAdd, State.regN_setRegN, if_true]; omega

/-- A cleared range of registers reads as its reset values (R19), every other register as before. -/
@[simp] theorem State.reg_clearRegs (s : State) (lo hi b : Nat) :
    (s.clearRegs lo hi).reg b = if lo ≤ b ∧ b < hi then Reg.resetValue b else s.reg b := Tbl.get_clear _ _ _ _ _

/-- Registers are unchanged by memory. -/
@[simp] theorem State.reg_setByte (s : State) (a v b : Nat) : (s.setByte a v).reg b = s.reg b := rfl

@[simp] theorem State.reg_setBytes (s : State) (a b : Nat) (l : List Nat) : (s.setBytes a l).reg b = s.reg b := by
  simp [State.reg]

@[simp] theorem State.reg_setCore (s : State) (p b : Nat) (c : Core) : (s.setCore p c).reg b = s.reg b := rfl

/-! ### Memory -/

/-- A byte that was written reads as the byte written, every other byte as before. -/
@[simp] theorem State.byte_setByte (s : State) (a v b : Nat) : (s.setByte a v).byte b = if b = a then v % 256 else s.byte b := by
  unfold State.byte State.setByte
  simp only [Tbl.get_set]
  split <;> simp

/-- Bytes outside the range written are unchanged. -/
theorem State.byte_setBytes_out (s : State) (a b : Nat) (l : List Nat) (h : b < a ∨ a + l.length ≤ b) :
    (s.setBytes a l).byte b = s.byte b := by
  induction l generalizing s a with
  | nil => rfl
  | cons x r ih =>
    simp only [List.length_cons] at h
    rw [State.setBytes, ih _ _ (by omega), State.byte_setByte, if_neg (by omega)]

/-- Bytes inside the range written read as the bytes written. -/
theorem State.byte_setBytes_in (s : State) (a i : Nat) (l : List Nat) (h : i < l.length) :
    (s.setBytes a l).byte (a + i) = l.getD i 0 % 256 := by
  induction l generalizing s a i with
  | nil => simp at h
  | cons x r ih =>
    rw [State.setBytes]
    cases i with
    | zero => rw [Nat.add_zero, State.byte_setBytes_out _ _ _ _ (by omega), State.byte_setByte]; simp
    | succ n =>
      have := ih (s.setByte a x) (a + 1) n (by simpa using h)
      rw [show a + (n + 1) = a + 1 + n by omega, this]; rfl

@[simp] theorem leBytes_length (n v : Nat) : (leBytes n v).length = n := by
  induction n generalizing v with
  | zero => rfl
  | succ n ih => simp [leBytes, ih]

/-- Bytes outside a little-endian store are unchanged. -/
theorem State.byte_setLe_out (s : State) (a n v b : Nat) (h : b < a ∨ a + n ≤ b) : (s.setLe a n v).byte b = s.byte b :=
  State.byte_setBytes_out s a b _ (by simpa using h)

@[simp] theorem State.byte_setReg (s : State) (a b : Nat) (v : Word) : (s.setReg a v).byte b = s.byte b := rfl

/-- Memory keeps its canonical form under every memory operation. -/
theorem Memory.wf_setByte (s : State) (a v : Nat) (h : Memory.wf s.mem = true) : Memory.wf (s.setByte a v).mem = true :=
  Tbl.wf_set memDefault s.mem a _ h

theorem Memory.wf_setBytes (s : State) (a : Nat) (l : List Nat) (h : Memory.wf s.mem = true) :
    Memory.wf (s.setBytes a l).mem = true := by
  induction l generalizing s a with
  | nil => exact h
  | cons x r ih => exact ih _ _ (Memory.wf_setByte s a x h)

theorem Memory.wf_setLe (s : State) (a n v : Nat) (h : Memory.wf s.mem = true) : Memory.wf (s.setLe a n v).mem = true :=
  Memory.wf_setBytes s a _ h

theorem Memory.wf_clearMem (s : State) (lo hi : Nat) (h : Memory.wf s.mem = true) : Memory.wf (s.clearMem lo hi).mem = true :=
  Tbl.wf_clear memDefault lo hi s.mem h

/-! ### Cores -/

@[simp] theorem State.core_setCore (s : State) (p q : Nat) (c : Core) : (s.setCore p c).core q = if q = p then c else s.core q :=
  Tbl.get_set _ s.cores p q c

@[simp] theorem State.core_modCore (s : State) (p q : Nat) (f : Core → Core) :
    (s.modCore p f).core q = if q = p then f (s.core p) else s.core q := State.core_setCore s p q _

@[simp] theorem State.core_setReg (s : State) (a q : Nat) (v : Word) : (s.setReg a v).core q = s.core q := rfl

end Sys2Proof.Machine
end

