-- ==== Sys2Proof/Tests/Slice0.lean ====
section
/-! SUPPORT. Tests: operands that WellFormed refuses, worked examples of the specification, and for every obligation with premises
states that meet them. -/

namespace Sys2Proof.Tests

set_option Elab.async false

open Sys2Proof.Machine Sys2Proof.Safety

/-! ### Helpers -/

/-- The reset state with registers set. -/
def st (l : List (Nat × Nat)) : State := l.foldl (fun s e => s.setRegN e.1 e.2) State.reset

/-- The outcome is a next state that a test accepts. -/
def nextIs (o : Host.Outcome State Fault Refusal) (f : State → Bool) : Bool :=
  match o with
  | .next t => f t
  | _ => false

/-- The woven context of core 0, and the first loose context of core 0. -/
def w0 : Ctx := .woven 0
def l0 : Ctx := .loose 0 0

/-- Core 0 RUNNING on a part with 8 GiB of DRAM ready. -/
def run0 : State :=
  { st [(Reg.CORE_STATUS 0, 1), (Reg.DMC_CAP, 8192), (Reg.DMC_STATUS, 1)] with dram := { DramSt.init with raw := false } }

/-- A state at a time of the timebase, with the pick number that belongs to it. -/
def timed (s : State) (t : Nat) : State := (s.setReg64 Reg.TBS_TIME_LO t).setReg64 Reg.WV_PICK_LO (t / 1000)

/-! ### WellFormed refuses -/

theorem test_wf_selector : Instr.wf (.add w0 ⟨0, 0x35, .imm 0⟩) = false ∧ Instr.wf (.add w0 ⟨0, 0, .sel 0x30⟩) = false ∧
    Instr.wf (.loop w0 (.sel 0x20) 0) = false ∧ Instr.wf (.adda w0 0 0 0x3F) = false ∧ Instr.wf (.sst w0 0x30 0 0) = false ∧
    Instr.wf (.movas w0 0 0x30) = false ∧ Instr.wf (.madda w0 0 0 0x3F 0) = false ∧ Instr.wf (.cfgGang w0 (.sel 0x30)) = false := by decide

theorem test_wf_control : Instr.wf (.waitpick w0 (.imm 0)) = false ∧ Instr.wf (.waitpick w0 (.sel 0x3F)) = false ∧
    Instr.wf (.phaseHint w0 3 0) = false ∧ Instr.wf (.carryBegin w0 0) = false ∧ Instr.wf (.cfgNum w0 (.imm true 3)) = false ∧
    Instr.wf (.cfgNum w0 (.sel 0x3F)) = false := by decide

theorem test_wf_stream : Instr.wf (.seXfer w0 ⟨0, true, 32, false, 0, 0, 0, 0, false, 0, 0⟩) = false ∧
    Instr.wf (.seXfer w0 ⟨0, true, 31, false, 0, 0, 0, 0, false, 0, 0⟩) = true := by decide

theorem test_wf_mpass : Instr.wf (.mpass w0 ⟨5, 0, 0, true, 0, false, 0, 0x3F, 0, 0⟩) = false ∧
    Instr.wf (.mpass w0 ⟨0, 6, 0, true, 0, false, 0, 0x3F, 0, 0⟩) = false ∧
    Instr.wf (.mpass w0 ⟨0, 0, 0, true, 0, false, 0, 0x20, 0, 0⟩) = false ∧
    Instr.wf (.mpass w0 ⟨0, 1, 0, true, 0, false, 0x20, 0x3F, 0, 0⟩) = false ∧
    Instr.wf (.mpass w0 ⟨0, 0, 0, false, 0, false, 0, 0x3F, 0, 1⟩) = false ∧
    Instr.wf (.mpass w0 ⟨4, 5, 511, true, 15, true, 0xFF, 0x3F, 15, 15⟩) = true := by decide

theorem test_wf_vector : Instr.wf (.vadd w0 ⟨0, 0, .sel 0x30, false, false, 0⟩) = false ∧
    Instr.wf (.vand w0 ⟨0, 0, .arr 0, true, false, 0⟩) = false ∧ Instr.wf (.vshl w0 ⟨0, 0, .arr 0, true, false, 0⟩) = false ∧
    Instr.wf (.vcvti w0 ⟨0, 0, .arr 0, true, false, 0⟩) = false ∧ Instr.wf (.vcvti w0 ⟨0, 0, .sel 0, false, false, 0⟩) = false ∧
    Instr.wf (.vcvtf w0 ⟨0, 0, .sel 0, true, false, 0⟩) = false ∧ Instr.wf (.vcopy w0 ⟨0, 0, .sel 1, true, false, 0⟩) = false ∧
    Instr.wf (.vmaxabs w0 ⟨0, true, true, 16, 0⟩) = false := by decide

theorem test_wf_requantise : Instr.wf (.req w0 ⟨false, 0, false, 0, 0, false, 1, 0, false, 0, 0, 0, 0⟩) = false ∧
    Instr.wf (.req w0 ⟨false, 0, false, 0, 0, false, 0, 4, false, 0, 0, 0, 0⟩) = false ∧
    Instr.wf (.req w0 ⟨false, 0, false, 0, 0, false, 0, 0, true, 16, 0, 0, 0⟩) = false ∧
    Instr.wf (.wcomb w0 ⟨⟨false, 0, 0⟩, ⟨true, 0, 0⟩, ⟨true, 0, 0⟩, 0, true, 0, 0⟩) = false := by decide

theorem test_wf_windows : Instr.wf (.pool w0 ⟨0, 0, false, 3, false, 0, false, 0⟩) = false ∧
    Instr.wf (.pool w0 ⟨0, 0, false, 0, false, 3, false, 0⟩) = false ∧ Instr.wf (.pool w0 ⟨0, 0, true, 2, false, 0, false, 0⟩) = false ∧
    Instr.wf (.pool w0 ⟨0, 0, true, 0, false, 0, false, 9⟩) = false ∧ Instr.wf (.dwconv w0 ⟨0, 0, 0, 3⟩) = false := by decide

/-! ### Worked examples of the specification -/

/-- The words of chapter 09's worked examples decode. -/
theorem test_decode_words :
    decodeWeft w0 0x2003311580800000 = some (.seXfer w0 ⟨3, false, 0x311, true, 6, 32, 0, 0, false, 0, 0⟩) ∧
    decodeWeft w0 0x300087F27B7E4A00 = some (.mpass w0 ⟨0, 2, 63, true, 2, false, 0xF6, 0x3F, 2, 5⟩) ∧
    decodeWeft w0 0x440681010410FCD0 = some (.req w0 ⟨false, 6, true, 32, 0, true, 0, 1, false, 2, 63, 3, 4⟩) := by decide

/-- 13, Table, Decode of 0x1_2345_6780: two ranks, recommended masks. -/
theorem test_dram_decode :
    let ch := (List.range 4).map (fun i => (Reg.DMC_CHHASH0 + 4 * i, 2 ^ (9 + i) + 2 ^ (20 + i) + 2 ^ (24 + i)))
    let bk := (List.range 4).map (fun i => (Reg.DMC_BKHASH0 + 4 * i, 2 ^ (15 + i) + 2 ^ (28 + i)))
    (st (ch ++ bk ++ [(Reg.DMC_BKHASH_HI, 0x08040201), (Reg.DMC_CFG, 2)])).dramDecode 0x123456780 =
      { ch := 4, rank := 0, bank := 9, row := 5242, col := 15, crow := 5246, cbyte := 1264 } := by decide

/-! ### Cores and programs -/

/-- The woven registers of core 0. -/
def withCtx (s : State) (c : Context) : State := s.modCore 0 (fun k => { k with woven := c })

/-- Core section of role 0: four instructions, a landing buffer, a carry region without map outputs. -/
def sec0 : CoreSec :=
  { core := 0, weft := [0, 0, 0, 0], params := [], land := [⟨0, 1, 0, 64⟩], carry := [], regions := [⟨1, 0, 0, 0, 0, 0, 0, 0⟩], outs := [],
    reentry := [⟨0, 0, [], 0, 0⟩], wsEnd := 0 }

/-- A variant that runs role 0, and an image that holds it, with a tick of 20 picks. -/
def var0 : Variant :=
  { id := 7, reduced := 0, lost := 0, dies := 0, cores := [sec0], dec := [], isp := [], ret := [], binds := [], sets := [], rings := [], host := [] }
def im0 : Image :=
  { addr := 0, flags := 0, tick := 20, profile := 60, slackMin := 0, margin := 0, carryLimit := 4, lead := 0, weaveId := 1, build := 1, variants := [var0],
    descs := [], pools := [] }

/-- A state with an image active in a weave state. -/
def weaving (s : State) (w : Nat) (f : WeaveSt → WeaveSt) : State :=
  { (s.setFld Reg.WV_STATUS 0 3 w).setRegN Reg.WV_VARIANT (7 + 7 * 65536) with
    weave := f { WeaveSt.init with active := some im0, tickLen := 20 } }

/-- Core 0 RUNNING its role. -/
def wov0 : State := weaving run0 4 id

/-- A loose job on core 0. -/
def job0 : Job :=
  { num := 3, descAddr := 0x10000, image := 0, core := 0, irq := false, ctx := Context.init, ctxSlot := 0, phase := .running, ftz := false,
    mode := 0, tiles := 0, slots := 4, spOff := 0, spSize := 64, count := 2, since := 0, saveOrder := 0, cancelled := false, held := none,
    heldPick := 0, savedSlots := [], savedTags := [] }
def jobbed (j : Job) : State := { run0 with jobs := { JobsSt.init with jobs := [j] } }

/-- Core 0 without a role, RUNNING. -/
def bare0 : State := run0.setRegN (Reg.CLU_ROLE 0 0) 0xF

/-- WeftReachesSequencer, WeftRoundTrip: a parked core; a running core and an ill-formed instruction; a well-formed one. -/
theorem witness_sequencer : weftCtx (.nop w0) = some w0 ∧ State.reset.canIssue w0 = false ∧ (run0.setRegN (Reg.CORE_STATUS 0) 9).canIssue w0 = false ∧
    run0.canIssue w0 = true ∧ weftCtx (.waitpick w0 (.imm 0)) = some w0 ∧ Instr.wf (.waitpick w0 (.imm 0)) = false ∧
    Instr.wf (.waitpick w0 (.imm 1)) = true ∧ (jobbed job0).canIssue l0 = true := by decide +kernel

/-- WeftControlFlow, WovenControlFrame: the four stack and loop cases, at their limits. -/
theorem witness_control_flow : run0.canIssue w0 = true ∧ LoopCount.wf (.imm 0) = true ∧ LoopCount.wf (.sel 0x1F) = true ∧
    (run0.ctx w0).sp = 0 ∧ (run0.ctx w0).depth = 0 ∧
    (let s := withCtx run0 { Context.init with sp := 4, depth := 4 }
     s.canIssue w0 = true ∧ (s.ctx w0).sp = 4 ∧ (s.ctx w0).depth = 4) ∧
    (let s := withCtx run0 { Context.init with sp := 1, depth := 1, lframe := [(0, 1)] }
     s.canIssue w0 = true ∧ 0 < (s.ctx w0).depth ∧ Tbl.get (fun _ => 0) (s.ctx w0).lframe 0 = (s.ctx w0).sp) ∧
    (let s := withCtx run0 { Context.init with sp := 3, depth := 3, lframe := [(2, 2)] }
     s.canIssue w0 = true ∧ (s.core 0).woven.sp < 4 ∧ 0 < (s.core 0).woven.sp ∧
      Tbl.get (fun _ => 0) (s.core 0).woven.lframe 2 ≠ (s.core 0).woven.sp) := by decide +kernel

/-- LoopBodyEnd: more than one iteration, the last one, and an instruction inside the body. -/
theorem witness_loop_body_end :
    let loop := fun (n : Nat) => withCtx wov0 { Context.init with pc := 1, depth := 1, lc := [(0, BitVec.ofNat 32 n)], lend := [(0, 1)] }
    (loop 2).canIssue w0 = true ∧ (loop 2).progLen w0 = some 4 ∧ ((loop 2).ctx w0).getL 0 ≠ 1 ∧ ((loop 1).ctx w0).getL 0 = 1 ∧
    (withCtx wov0 { Context.init with pc := 0, depth := 1, lend := [(0, 1)] }).canIssue w0 = true := by decide +kernel

/-- ProgramEndWaits: the last instruction of a woven program, and of a loose one. -/
theorem witness_program_end : (withCtx wov0 { Context.init with pc := 3 }).canIssue w0 = true ∧ wov0.progLen w0 = some 4 ∧
    (let s := jobbed { job0 with ctx := { Context.init with pc := 1 } }
     s.canIssue l0 = true ∧ s.loosejob 0 0 = some { job0 with ctx := { Context.init with pc := 1 } }) := by decide +kernel

/-- HaltInstruction: a core without a role, one with a role, a loose job. -/
theorem witness_halt : bare0.canIssue w0 = true ∧ bare0.roleOf 0 = none ∧ bare0.failover 0 = none ∧ wov0.canIssue w0 = true ∧
    (jobbed job0).loosejob 0 0 = some job0 := by decide +kernel

/-- ScalarAlu, ScalarAluFrame: a row of the table in both forms. -/
theorem witness_scalar_alu : Alu.wf ⟨31, 0x7F, .sel 0x2F⟩ = true ∧ Alu.wf ⟨0, 0x40, .imm 0xFFFFFFFF⟩ = true ∧ selOk 0x2F = true ∧
    (aluRow (.sra w0 ⟨1, 2, .imm 3⟩)).isSome = true ∧ run0.canIssue w0 = true := by decide +kernel

/-- ScalarMemory: the last word of the scratchpad; one byte off; beyond it. -/
theorem witness_scalar_memory :
    let at_ := fun (a : Nat) => withCtx run0 { Context.init with a := [(1, BitVec.ofNat 40 a)] }
    let top := coreBase 0 + 0x1FFFFC
    (at_ top).ownScratch w0 top 4 = some top ∧ (at_ (top - 4)).ownScratch w0 (top - 4) 8 = some (top - 4) ∧
    (at_ top).canIssue w0 = true ∧ (at_ (top + 4)).ownScratch w0 (top + 4) 4 = none ∧ (top - 1) % 4 ≠ 0 ∧
    wov0.ownScratch w0 (aliasBase 0) 4 = some (coreBase 0) := by decide +kernel

/-- ConfigWrites: the last values taken and the first refused. -/
theorem witness_config_writes :
    let r := fun (v : Nat) => withCtx run0 { Context.init with s := [(1, BitVec.ofNat 32 v)] }
    (r 3).canIssue w0 = true ∧ ((r 3).sel w0 1).toNat = 3 ∧ ((r 4).sel w0 1).toNat = 4 ∧ ((r 5).sel w0 1).toNat = 5 ∧
    ((r 6).sel w0 1).toNat = 6 ∧ GangArg.wf (.sel 1) = true ∧ NumArg.wf (.sel 1) = true ∧ NumArg.wf (.imm true 2) = true := by decide +kernel

/-- WaitpickOrder: operand and tick at each boundary. -/
theorem witness_waitpick :
    let s := timed wov0 5000
    s.canIssue w0 = true ∧ s.coreTick 0 = 20 ∧ s.coreOffset 0 = 5 ∧ (s.core 0).lastWait = 0 ∧ PickArg.wf (.imm 5) = true ∧
    PickArg.wf (.imm 20) = true ∧ PickArg.wf (.imm 21) = true ∧ PickArg.wf (.sel 0) = true ∧ (s.sel w0 0).toNat = 0 := by decide +kernel

/-- SyncBarrier, and a hint of the highest level. -/
theorem witness_sync : wov0.canIssue w0 = true ∧ wov0.roleOf 0 = some 0 ∧ wov0.barrier 0 7 = none ∧ wov0.waitersAt 0 7 = [] ∧
    (3 : BitVec 8).toNat.testBit 0 = true ∧ (3 : BitVec 8).toNat ≠ 2 ^ 0 ∧ (1 : BitVec 8).toNat = 2 ^ 0 ∧
    (2 : BitVec 8).toNat.testBit 0 = false ∧ (2 : BitVec 2).toNat < 3 := by decide +kernel

/-- A frame handle of stream 0 with an outcome, its CRC right. -/
def handled (o : Nat) : State :=
  let b := List.replicate 20 0 ++ [o] ++ List.replicate 103 0
  wov0.setBytes 0 (b ++ leBytes 4 (crc32c b))

/-- CarryBeginEnd: a frame of outcome 0, one without set map bits, an unreadable map, a region decided before, a count at its limit, an
open region. -/
theorem witness_carry :
    let rg : CarryRegion := ⟨1, 0, 0, 0, 0, 0, 0, 0⟩
    let at_ := fun (n : Nat) => (handled 1).setCarry 0 1 true n
    (handled 0).canIssue w0 = true ∧ (handled 0).coreSec 0 = some sec0 ∧
    sec0.regions.find? (fun g => g.region == (1 : BitVec 12).toNat) = some rg ∧ ((handled 0).core 0).region = none ∧
    Tbl.get (fun _ => 0) ((handled 0).core 0).decided 1 = 0 ∧ (handled 0).readMap rg = .carryAll ∧ (handled 1).readMap rg = .bits false ∧
    (at_ 3).carryValid 0 1 = true ∧ (at_ 3).carryCount 0 1 = 3 ∧ (at_ 4).carryCount 0 1 = 4 ∧ sec0.outsOf rg = [] ∧
    (((handled 0).modCore 0 (fun c => { c with region := some 1, decided := [(1, 2)] })).core 0).region = some 1 := by decide +kernel

/-- LooseForbidden. -/
theorem witness_loose : (jobbed job0).canIssue l0 = true ∧ (jobbed job0).loosejob 0 0 = some job0 := by decide +kernel

/-! ### Streams, matrix and vector engines -/

/-- A descriptor's fields but its CRC: base, kind, formats in memory and at the engine, flags, counts. -/
def descOf (base kind mem eng flags : Nat) (cnt : List Nat) : List Nat :=
  leBytes 5 base ++ [kind, mem, eng] ++ List.replicate 16 0 ++ cnt.flatMap (leBytes 2) ++ List.replicate 14 0 ++ leBytes 2 flags ++
    List.replicate 14 0

/-- Core 0 with a cached descriptor table entry 5. -/
def cached (b : List Nat) (bad : Option Poison) : State := run0.modCore 0 (fun c => { c with dcache := [(5, some (b, bad))] })

/-- A transfer of a descriptor in slot 0 of core 0 that has delivered elements. -/
def slotted (s : State) (b : List Nat) (n : Nat) : State :=
  s.setSlot 0 0 ⟨true, (Desc.ofBytes b).kind, 5, some (Desc.ofBytes b), none, [0, 0, 0, 0, 0], 0, List.replicate n ⟨1, true, Tag.clean⟩, 0, false⟩

/-- Address register 1 of core 0. -/
def pointed (s : State) (a : Nat) : State := s.modCore 0 (fun k => { k with woven := { k.woven with a := [(1, BitVec.ofNat 40 a)] } })

/-- StreamTransferStarts: a STORE, a LOAD, an entry that failed its check, a reserved kind. -/
theorem witness_stream :
    let plain : Xfer := ⟨0, false, 5, false, 0, 0, 0, 0, false, 0, 0⟩
    let d := fun (kind : Nat) => descOf (coreBase 0) kind 3 3 0 [0, 0, 0, 0, 0]
    let s := fun (kind : Nat) => cached (d kind) none
    plain.wf = true ∧ (s 2).canIssue w0 = true ∧ (s 2).resolve 0 5 = (s 2, d 2, none) ∧ (Desc.ofBytes (d 2)).ok = true ∧
    (s 2).plan 0 (Desc.ofBytes (d 2)) [0, 0, 0, 0, 0] 0 [] true = .inr [some (coreBase 0, 0)] ∧
    (Desc.ofBytes (d 0)).ok = true ∧ (s 0).gated w0 = false ∧
    (s 0).plan 0 (Desc.ofBytes (d 0)) [0, 0, 0, 0, 0] 0 [] false = .inr [some (coreBase 0, 0)] ∧
    (((s 0).landingOf 0 [coreBase 0]).all (fun e => (s 0).isLanded 0 e.1)) = true ∧
    (cached [] (some .missing)).resolve 0 5 = (cached [] (some .missing), [], some .missing) ∧
    Xfer.wf ⟨0, true, 31, false, 0, 0, 0, 0, false, 0, 0⟩ = true ∧ (Desc.ofBytes (d 6)).ok = false := by decide +kernel

/-- A weight tile of ones, in engine 3. -/
def tiled (s : State) : State := s.setWeight 0 3 (some ⟨0, 3, List.replicate 1024 1, Tag.clean⟩)

/-- MatrixPassInt8, MatrixPassRefused: the last tile with room, one past it, no tile, no vectors, a pending change, a format that forms
no pair. -/
theorem witness_matrix_pass :
    let f : MPass := ⟨3, 0, 0, false, 15, false, 24, 0x3F, 0, 0⟩
    let b := descOf (coreBase 0) 0 3 3 0 [31, 0, 0, 0, 0]
    let s := slotted (tiled run0) b 32
    f.wf = true ∧ s.canIssue w0 = true ∧ s.bit (Reg.CORE_GANG 0) 4 = false ∧ s.fld (Reg.CORE_GANG 0) 2 2 = 0 ∧ s.gated w0 = false ∧
    s.weight 0 3 = some ⟨0, 3, List.replicate 1024 1, Tag.clean⟩ ∧ (s.slot 0 0).active = true ∧ (s.slot 0 0).kind ≤ 1 ∧
    (s.slot 0 0).desc = some (Desc.ofBytes b) ∧ (Desc.ofBytes b).fmtEng = 3 ∧ (s.slot 0 0).elems.length = 32 ∧
    (s.slot 0 0).elems.all (fun v => v.valid) = true ∧ f.t0.toNat + 1 ≤ 16 ∧
    (run0.slot 0 0).feeds = false ∧ run0.weight 0 3 = none ∧ (tiled run0).weight 0 3 ≠ none ∧ ((tiled run0).slot 0 0).bad = none ∧
    MPass.wf ⟨3, 0, 32, true, 15, false, 0, 0x3F, 0, 0⟩ = true ∧ 16 < 15 + (32 + 1 + 31) / 32 ∧
    MPass.wf ⟨4, 0, 0, true, 0, false, 0, 0x3F, 0, 0⟩ = true ∧ (run0.setFld (Reg.CORE_GANG 0) 4 1 1).bit (Reg.CORE_GANG 0) 4 = true ∧
    s.slot 0 0 = s.slot 0 0 ∧ (s.slot 0 0).feeds = true ∧ actPairs 5 3 = false := by decide +kernel

/-- VectorElementwise: the last word of the scratchpad, and an array beyond it. -/
theorem witness_vector :
    let s := pointed run0 (coreBase 0 + 0x1FFFFC)
    (vopRow (.vshl w0 ⟨1, 1, .arr 1, false, true, 0⟩)).isSome = true ∧ Instr.wf (.vshl w0 ⟨1, 1, .arr 1, false, true, 0⟩) = true ∧
    s.canIssue w0 = true ∧ s.gated w0 = false ∧ (s.array w0 1 4 4).2 = some (coreBase 0 + 0x1FFFFC) ∧ (s.array w0 1 4 8).2 = none := by decide +kernel

/-- RequantiseDelivers: a STORE of 32 columns; no STORE; tiles past tile 15. -/
theorem witness_requantise :
    let f : Req := ⟨false, 1, false, 0, 0, true, 0, 0, false, 0x3F, 0, 0, 1⟩
    let b := descOf (coreBase 0) 2 3 3 0 [1, 0, 0, 0, 0]
    let s := slotted (pointed run0 (coreBase 0 + 0x1FFFF0)) b 0
    f.wf = true ∧ s.canIssue w0 = true ∧ (0x3F : BitVec 6).toNat % 16 + (0 + 1 + 31) / 32 = 16 ∧ (s.slot 0 0).active = true ∧
    (s.slot 0 0).bad = none ∧ (s.slot 0 0).desc = some (Desc.ofBytes b) ∧ (Desc.ofBytes b).fmtEng = reqFmt 1 ∧
    8 ≤ fmtBits (Desc.ofBytes b).fmtMem ∧ (s.array w0 1 16 16).2 = some (coreBase 0 + 0x1FFFF0) ∧ s.gated w0 = false ∧
    (s.slot 0 0).carried = false ∧
    s.plan 0 (Desc.ofBytes b) (s.slot 0 0).org (s.slot 0 0).aoff [] true = .inr [some (coreBase 0, 0), some (coreBase 0 + 1, 0)] ∧
    (run0.slot 0 0).active = false ∧ 16 < 15 + (32 + 1 + 31) / 32 := by decide +kernel

/-- CombineAndMaxabs. -/
theorem witness_combine :
    let s := pointed run0 (coreBase 0)
    let f : Wcomb := ⟨⟨true, 3, 15⟩, ⟨false, 0, 0⟩, ⟨true, 0, 0⟩, 31, true, 1, 31⟩
    s.canIssue w0 = true ∧ s.gated w0 = false ∧ f.wf = true ∧ f.c0.tile.toNat + (32 + 31) / 32 ≤ 16 ∧
    (s.array w0 1 4 4096).2 = some (coreBase 0) ∧ Vmaxabs.wf ⟨31, false, false, 0x3F, 31⟩ = true := by decide +kernel

/-- StatisticsBlocks: the last block of DRAM, and an address off by one. -/
theorem witness_statistics :
    let top := 8192 * 2 ^ 20
    let s := fun (a : Nat) => pointed run0 a
    (s (top - 272)).canIssue w0 = true ∧ (((s (top - 272)).ctx w0).getA 1).toNat % 16 = 0 ∧ top - 272 + 272 ≤ (s (top - 272)).dramBytes ∧
    (((s (top - 528)).ctx w0).getA 1).toNat = top - 528 ∧ (((s 1).ctx w0).getA 1).toNat % 16 ≠ 0 := by decide +kernel

/-! ### Vision operators -/

/-- Core 0 with address register 1 at scratchpad offset 0x1000, bytes there. -/
def blocked (b : List Nat) : State := (pointed run0 (coreBase 0 + 0x1000)).setBytes (coreBase 0 + 0x1000) b

/-- WindowOperators: a window of one tap and one channel. -/
theorem witness_windows :
    let b := descOf (coreBase 0) 0 3 7 1 [0, 0, 0, 0, 0]
    let s := slotted (pointed run0 (coreBase 0 + 0x1000)) b 1
    let d := Desc.ofBytes b
    s.canIssue w0 = true ∧ s.gated w0 = false ∧ (s.slot 0 0).active = true ∧ (s.slot 0 0).kind ≤ 1 ∧ (s.slot 0 0).bad = none ∧
    (s.slot 0 0).desc = some d ∧ d.total ≤ (s.slot 0 0).elems.length ∧ d.kind = 0 ∧ d.window = true ∧ d.fmtEng = 7 ∧
    Sys2Proof.Pool.wf ⟨0, 1, true, 0, false, 1, true, 0⟩ = true ∧ (s.array w0 1 1 (4 * d.outs * d.channels)).2 = some (coreBase 0 + 0x1000) ∧
    Dwconv.wf ⟨0, 1, 1, 0⟩ = true ∧ d.fmtMem ≤ 4 ∧ d.fmtMem ≠ 2 ∧ (s.array w0 1 1 (d.kernel * d.channels)).2 = some (coreBase 0 + 0x1000) ∧
    (s.array w0 1 4 (4 * d.outs * d.channels)).2 = some (coreBase 0 + 0x1000) := by decide +kernel

/-- BoxDecodeRun: a valid block of one position, its only range, and a range beyond it. -/
theorem witness_boxdec :
    let level := leBytes 4 0x4000 ++ leBytes 2 1 ++ leBytes 2 1 ++ leBytes 2 0 ++ leBytes 2 1 ++ List.replicate 20 0
    let s := blocked ([1, 0, 1, 1, 1, 0xC] ++ leBytes 2 1024 ++ List.replicate 20 0 ++ leBytes 2 1 ++ leBytes 2 1 ++ leBytes 4 0x8000 ++
      leBytes 4 0x2000 ++ leBytes 4 1 ++ List.replicate 4 0 ++ level ++ List.replicate 96 0)
    let k := s.boxBlock (coreBase 0 + 0x1000)
    s.canIssue w0 = true ∧ s.gated w0 = false ∧ (s.array w0 1 16 176).2 = some (coreBase 0 + 0x1000) ∧ k.valid = true ∧ k.positions = 1 ∧
    ¬ 1 + 1 ≤ k.positions ∧ k.hist + 1040 ≤ k.list ∧ ((s.modCore 0 (fun c => { c with boxOpen := false })).core 0).boxOpen = false ∧
    ((blocked []).boxBlock (coreBase 0 + 0x1000)).valid = false := by decide +kernel

/-- SuppressionRun, EmissionQueues: a valid parameter entry of 32 candidates. -/
theorem witness_suppression :
    let s := blocked (leBytes 4 0 ++ leBytes 2 32 ++ leBytes 2 32 ++ [0, 0, 0, 0] ++ leBytes 2 0x200 ++ leBytes 2 0x400)
    let e := s.nmsEntry (coreBase 0 + 0x1000)
    s.canIssue w0 = true ∧ s.gated w0 = false ∧ (s.array w0 1 16 16).2 = some (coreBase 0 + 0x1000) ∧ e.valid = true ∧ e.nc = 32 ∧ e.sN = 32 ∧
    e.out + 32 * e.sN ≤ 0x200000 ∧ (s.queue 0 0).length + e.sN ≤ 1024 ∧ (s.array w0 1 1 (32 * 1024)).2 = some (coreBase 0 + 0x1000) ∧
    (jobbed job0).canIssue l0 = true := by decide +kernel

/-- CropSlots: a valid block of 64 slots and one survivor that it selects, and a block that is not valid. -/
theorem witness_crop :
    let blk := leBytes 8 1 ++ leBytes 2 0 ++ leBytes 2 0 ++ [64, 0, 0, 0] ++ leBytes 2 16 ++ leBytes 2 16 ++ leBytes 2 2 ++ leBytes 2 2 ++
      leBytes 4 0x4000 ++ leBytes 2 1 ++ leBytes 2 0 ++ leBytes 8 0x100000 ++ leBytes 8 0x200000 ++ leBytes 4 0x6000 ++ List.replicate 12 0
    let s := (blocked blk).setBytes (coreBase 0 + 0x4000) (List.replicate 22 0 ++ [1] ++ List.replicate 9 0)
    let k := s.cropBlock (coreBase 0 + 0x1000)
    s.canIssue w0 = true ∧ s.gated w0 = false ∧ (s.array w0 1 16 64).2 = some (coreBase 0 + 0x1000) ∧ k.valid = true ∧ k.ccap = 64 ∧
    ((s.entries (coreBase 0 + k.surv) k.sN).filter k.selects).length = 1 ∧ 63 + 1 ≤ k.ccap ∧ k.src + k.frameBytes ≤ s.dramBytes ∧
    s.dramBytes ≤ 0x1000000000 ∧ k.dst + k.size ≤ s.dramBytes ∧ ((blocked []).cropBlock (coreBase 0 + 0x1000)).valid = false := by decide +kernel

/-! ### Core control, waits and pushes -/

/-- CoreParkResume: each state of the core that a clause names. -/
theorem witness_park :
    let at_ := fun (v : Nat) => bare0.setRegN (Reg.CORE_STATUS 0) v
    let halted := (at_ 3).setFld (Reg.CORE_HALT_REASON 0) 8 2 1
    0 < 9 * bare0.clusters ∧ bare0.coreState 0 = 1 ∧ bare0.bit (Reg.CORE_STATUS 0) 3 = false ∧ (at_ 9).bit (Reg.CORE_STATUS 0) 3 = true ∧
    (at_ 0).coreState 0 = 0 ∧ (at_ 0).roleOf 0 = none ∧ (at_ 0).bit (Reg.CORE_STATUS 0) 7 = false ∧ halted.coreState 0 = 3 ∧
    halted.fld (Reg.CORE_HALT_REASON 0) 8 2 = 1 ∧ (at_ 0x80).bit (Reg.CORE_STATUS 0) 7 = true ∧
    ((at_ 0).setRegN (Reg.CORE_STATUS 8) 0).spareSlot 0 = none ∧ wov0.weaveState = 4 := by decide +kernel

/-- CoreHalts, CoreModeChanges: a core that runs, one with a park pending, a halted one, one with changes pending. -/
theorem witness_halts :
    bare0.coreState 0 ≠ 3 ∧ bare0.roleOf 0 = none ∧ bare0.failover 0 = none ∧
    (bare0.setRegN (Reg.CORE_STATUS 0) 9).bit (Reg.CORE_STATUS 0) 3 = true ∧ (bare0.setRegN (Reg.CORE_STATUS 0) 3).coreState 0 = 3 ∧
    (bare0.setRegN (Reg.CORE_GANG 0) 0x11).bit (Reg.CORE_GANG 0) 4 = true ∧
    (bare0.setRegN (Reg.CORE_NUMCFG 0) 0x200).bit (Reg.CORE_NUMCFG 0) 9 = true ∧ State.reset.coreStopped 0 = true ∧
    bare0.coreStopped 0 = false ∧ (3 : Word).getLsbD 8 = false ∧ (5 : Word).toNat / 2 % 4 ≠ 3 := by decide +kernel

/-- InvalidationsAndWindow: the limits of the ways, and each barred state. -/
theorem witness_window :
    let at_ := fun (w : Nat) => State.reset.setFld Reg.WV_STATUS 0 3 w
    State.reset.weaveState = 0 ∧ (at_ 3).weaveState = 3 ∧ (at_ 1).weaveState = 1 ∧ State.reset.locked Reg.SYS_SDT_BASE_LO = false ∧
    State.reset.locked Reg.SYS_SC_WINDOW = false ∧ (0x40000 : Word).toNat % 2 ^ 18 = 0 ∧ (0x3FFFF : Word).toNat % 2 ^ 18 ≠ 0 ∧
    (17 : Word).toNat % 32 = 17 ∧ (8 : Word).toNat % 32 = 8 ∧ (16 : Word).toNat % 32 = 16 := by decide +kernel

/-- OutsideCoreWrites: role 0 moves from slot 0 to slot 8 of its cluster; a running core. -/
theorem witness_outside_core :
    State.reset.weaveState = 0 ∧ State.reset.physOf 0 = some 0 ∧ physCore 0 8 = 8 ∧ State.reset.roleOf 8 = none ∧
    State.reset.coreStopped 0 = true ∧ State.reset.coreStopped 8 = true ∧ State.reset.coreState 0 = 0 ∧ run0.coreState 0 = 1 ∧
    wov0.weaveState = 4 ∧ (0x3FFFC : BitVec 18).toNat % 4 = 0 := by decide +kernel

/-- WaitsAndPushes: one core at a barrier, a held pass without and with its input, a push to a free and to an occupied slot, of the
present and of another epoch, and a notice on its way. -/
theorem witness_waits :
    let sync := ((wov0.setRegN (Reg.CORE_STATUS 0) 2).modCore 0 (fun c => { c with syncAt := some 5 })).setBarrier 0 5 (some ⟨3, 1, false, 0⟩)
    let f : MPass := ⟨0, 0, 0, false, 0, false, 0, 0x3F, 0, 0⟩
    let held := fun (s : State) => (s.setRegN (Reg.CORE_STATUS 0) 2).modCore 0 (fun c => { c with held := some (.mpass w0 f) })
    let tile := wov0.setWeight 0 0 (some ⟨0, 3, List.replicate 1024 1, Tag.clean⟩)
    let full := held (slotted tile (descOf (coreBase 0) 0 3 3 0 [31, 0, 0, 0, 0]) 32)
    let ps : Nat → Push := fun (e : Nat) => ({ sender := 1, target := 0, epoch := e, dest := some 0, buffer := 0, slot := 0, bytes := [1, 2], tags := [] } : Push)
    let at_ : Nat → State := fun (e : Nat) => { wov0 with pushes := [ps e] }
    sync.barrier 0 5 = some ⟨3, 1, false, 0⟩ ∧ sync.waitersAt 0 5 = [0] ∧ (held wov0).heldOf w0 = some (.mpass w0 f) ∧
    (match mpassRun w0 f false ((held tile).unhold w0) with | .wait => true | _ => false) = true ∧
    (match mpassRun w0 f false (full.unhold w0) with | .done _ => true | _ => false) = true ∧
    (at_ 0).pushes[0]? = some (ps 0) ∧ wov0.roleOf 0 = some 0 ∧ (at_ 0).landBuf 0 (ps 0) = some ⟨0, 1, 0, 64⟩ ∧ wov0.roleEpoch 0 = 0 ∧
    (at_ 0).isLanded 0 0 = false ∧
    ((at_ 0).modCore 0 (fun c => { c with landed := [(0, true)] })).isLanded 0 0 = true ∧ wov0.roleEpoch 0 ≠ 1 ∧
    ({ wov0 with notices := [4] } : State).notices[0]? = some 4 := by decide +kernel

/-! ### The weave -/

/-- WeaveCommands: each state, both lock values, a start pick of 0, one at the limit and one before it. -/
theorem witness_weave_commands :
    let at_ := fun (w : Nat) => State.reset.setFld Reg.WV_STATUS 0 3 w
    let from_ := fun (p : Nat) => (at_ 2).setReg64 Reg.WV_START_LO p
    (st [(Reg.WV_CTRL, 0x100)]).bit Reg.WV_CTRL 8 = true ∧ (List.range 8).all (fun w => (at_ w).weaveState == w) = true ∧
    (at_ 4).bit Reg.WV_CTRL 8 = false ∧ (at_ 4).bit Reg.WV_STATUS 7 = false ∧ (at_ 4).bit Reg.WV_STATUS 4 = false ∧
    ((at_ 4).putBit Reg.WV_STATUS 3 true).bit Reg.WV_STATUS 3 = true ∧ (at_ 2).reg64 Reg.WV_START_LO = 0 ∧
    (from_ 16).time + 16000 ≤ 1000 * (from_ 16).reg64 Reg.WV_START_LO ∧
    ¬ (from_ 15).time + 16000 ≤ 1000 * (from_ 15).reg64 Reg.WV_START_LO := by decide +kernel

/-- TickAndPick: a tick of 20 picks that is over, and one that is not. -/
theorem witness_tick :
    let s := timed wov0 20000
    s.weaveState = 4 ∧ s.weave.stopping = false ∧ s.weave.hedgeAt = none ∧ s.weave.active = some im0 ∧ s.variant = some var0 ∧
    s.fld Reg.WV_STATUS 4 3 = 0 ∧ s.weave.selected = s.regN Reg.WV_FAULTSET ∧ s.weave.due = [] ∧
    (var0.slots s.weave.tickLen).length ≤ s.weave.slot ∧ s.weave.tickPick + s.weave.tickLen ≤ s.pickNow ∧
    wov0.pickNow < wov0.weave.tickPick + wov0.weave.tickLen ∧
    (weaving run0 4 (fun w => { w with shadowBusy := [0] })).weave.shadowBusy = [0] ∧ (wov0.core 0).acked ≤ wov0.pickNow ∧
    wov0.pickNow < (({ wov0 with cores := [(0, { Core.init with acked := 1 })] } : State).core 0).acked ∧ State.reset.weaveState = 0 := by decide +kernel

/-- LoadAndStart: an image that fails its checks in LOADING and as a standby image; ARMED at its start pick with a variant; the hedge
weave at its pick. -/
theorem witness_load :
    let at_ := fun (w b : Nat) => (run0.setFld Reg.WV_STATUS 0 3 w).putBit Reg.WV_STATUS 7 (b == 1)
    let armed := weaving run0 3 id
    let hedge := weaving run0 6 (fun w => { w with hedgeAt := some 0 })
    run0.power.queue = [] ∧ run0.power.waking = [] ∧ (at_ 1 0).weaveState = 1 ∧ (at_ 4 1).bit Reg.WV_STATUS 7 = true ∧
    ((at_ 1 0).putBit Reg.WV_STATUS 7 false).loadImage 0 false none = .fail errMagic 0 none ∧
    ((at_ 4 1).putBit Reg.WV_STATUS 7 false).loadImage 0 false none = .fail errMagic 0 none ∧ armed.weaveState = 3 ∧
    armed.weave.startPick ≤ armed.pickNow ∧ armed.weave.active = some im0 ∧ armed.recheck.select im0 = some var0 ∧
    hedge.weaveState = 6 ∧ hedge.weave.hedgeAt = some 0 ∧ hedge.weave.due = [] ∧ hedge.hedgeVariant im0 = some (0, var0) := by decide +kernel

/-- FailoverSwitch: a core with three unacknowledged picks and a spare in its cluster; a failover with its load done and not done. -/
theorem witness_failover :
    let late := timed wov0 3000
    let f : Failover := ⟨0, 0, 0x0D, 0, none, false⟩
    let fails := fun (l : Option Nat) (o : Nat) =>
      let im := { im0 with variants := [{ var0 with cores := [{ sec0 with reentry := [⟨0, 0, [], 0, 0⟩, ⟨10, 2, [], 0, 0⟩] }] }] }
      timed ((({ wov0 with weave := { wov0.weave with active := some im } } : State).setFailover 0 (some { f with loaded := l })).setRegN
        (Reg.CORE_STATUS 0) 2) o
    late.lagNow 0 = some 3 ∧ late.physOf 0 = some 0 ∧ late.failover 0 = none ∧ late.wovenRole 0 = true ∧ late.roleOf 0 = some 0 ∧
    late.spareSlot 0 = some 8 ∧ late.coreState (physCore 0 8) = 4 ∧ wov0.lagNow 0 ≠ some 3 ∧ (fails none 0).failover 0 = some f ∧
    (fails none 0).coreState 0 = 2 ∧ (fails none 0).bit (Reg.CORE_STATUS 0) 7 = false ∧
    (match (fails (some 4) 10000).roleSec 0 with
      | some c => c.reentry.length == 2 && ((fails (some 4) 10000).reentryFor c 4).map (fun e => e.index) == some 2
      | none => false) = true ∧
    (fails (some 4) 10000).offset = 10 ∧ (fails (some 4) 9000).offset < 10 := by decide +kernel

/-- RetirementSlot: a due hole on an empty and on a full ring; a heartbeat slot of a silent and of a busy ring, due and not due. -/
theorem witness_retirement :
    let h : DueHole := ⟨1, 0, 5, 0, 0, 3⟩
    let s := ({ wov0 with weave := { wov0.weave with due := [h] } } : State)
    let full := (s.setRegN (Reg.RING_WP 1) 1)
    let e : RetSlot := ⟨2, 1, 1, 0, 0, 0, 0, false, 0⟩
    let im := { im0 with variants := [{ var0 with ret := [e] }] }
    let beat := fun (t : Nat) (b : Bool) => timed (({ wov0 with weave := { wov0.weave with active := some im } } : State).setRingTick 1
      ⟨0, 0, 0, b⟩) t
    s.weave.due = [h] ∧ 0 < s.ringFree 1 ∧ s.owedOf 0 = none ∧ full.ringFree 1 = 0 ∧ (beat 2000 false).variant = some { var0 with ret := [e] } ∧
    ({ var0 with ret := [e] }.slots 20)[0]? = some e ∧ e.pick ≤ (beat 2000 false).offset ∧ 0 < (beat 2000 false).ringFree 1 ∧
    (beat 2000 false).owes 1 = false ∧ ((beat 2000 false).ringTick 1).busy = false ∧ ((beat 2000 true).ringTick 1).busy = true ∧
    (beat 1000 false).offset < e.pick ∧ (beat 0 false).weave.dueEnd = [] := by decide +kernel

/-! ### The bus -/

/-- BusErrors: a missing core of a small part, an offset of no range, a register read of two bytes; the four ends of the ranges. -/
theorem witness_bus_errors :
    let small := st [(Reg.SYS_PARTID, (State.reset.regN Reg.SYS_PARTID))]
    small.clusters ≤ 8 ∧ State.reset.place 0x10C0000000 2 = .reg 0x10C0000000 ∧ State.reset.place (0x1000000000 + 0x200000) 4 = .err ∧
    State.reset.place (0x1000000000 + 0x1FFFFFC) 4 = .err ∧ State.reset.place (0x1000000000 + 0x840000) 4 = .err ∧
    State.reset.place (0x1000000000 + 0xC40000) 4 = .err := by decide +kernel

/-- BusAccesses: a register of the RAS block, bytes of DRAM with the channels sound, scratchpad within and outside a woven range. -/
theorem witness_bus_accesses :
    State.reset.rst.l3 = [] ∧ Reg.blk 0x49 ≤ Reg.RAS_BUSERR ∧ Reg.RAS_BUSERR < Reg.blk 0x49 + 0x100000 ∧ Reg.RAS_BUSERR % 4 = 0 ∧
    (Reg.rowOf Reg.RAS_BUSERR).isSome = true ∧ State.reset.onceLocked Reg.RAS_BUSERR = false ∧ run0.chanDead 0 = false ∧
    0x1000 + 64 ≤ run0.dramBytes ∧ run0.badRange 0x1000 64 = false ∧
    run0.place (coreBase 0) 64 = .core 0 .scratch (coreBase 0) ∧ run0.wovenRange 0 .scratch (coreBase 0) 64 = false := by decide +kernel

/-- The least image that R66 accepts: a header, a directory and one variant without roles, with checksums and digest computed outside
the model. -/
def imageBytes : List Nat :=
  leBytes 4 0x56414557 ++ [3, 0, 128, 0] ++ leBytes 2 0x960 ++ [0, 0] ++ leBytes 4 1000 ++ [45, 120, 3, 1] ++ leBytes 2 16 ++ leBytes 2 1 ++
    leBytes 4 1 ++ leBytes 4 0 ++ leBytes 8 208 ++ leBytes 8 128 ++
    beBytes 48 0x5b2255b906414f1ca24bc8ee8eabb635ccb8059d9250279173c04bea5c83b26d6ab8cd8430295786a390729b66dfcc09 ++
    leBytes 4 7 ++ leBytes 4 1 ++ List.replicate 20 0 ++ leBytes 4 0x8b8c62b7 ++
    leBytes 2 6 ++ leBytes 2 0xFFFF ++ leBytes 2 0xFFFF ++ [0, 0] ++ leBytes 8 192 ++ leBytes 8 16 ++ leBytes 4 0xb07c9714 ++ List.replicate 36 0 ++
    [1, 0, 0, 0, 0] ++ List.replicate 11 0

/-- LoadAndStart: an image that passes every check, in LOADING and as a standby image. -/
theorem witness_load_accepted :
    let s := ((run0.setBytes 0 imageBytes).setFld Reg.WV_STATUS 0 3 1)
    let b := ((run0.setBytes 0 imageBytes).setFld Reg.WV_STATUS 0 3 4)
    (match s.loadImage 0 false none with | .ok im => im.weaveId == 7 && im.variants.length == 1 | .fail _ _ _ => false) = true ∧
    (match b.loadImage 0 false none with | .ok _ => true | .fail _ _ _ => false) = true := by decide +kernel

/-! ### Jobs, ingest and decoding -/

/-- JobQueues: a ring of four entries with room for one, with none, and beyond it; masters that the client admits and not; each phase
of a job; an allowance at and past the end of the scratchpad; a translation that runs. -/
theorem witness_jobs :
    let q := fun (v : Nat) => st [(Reg.WV_JQ_CFG 2, v)]
    let ph := fun (p : JobPhase) => jobbed { job0 with phase := p }
    let s := { run0 with jobs := { JobsSt.init with jobs := [{ job0 with phase := .restoring }] } }
    (q 0x82).jqOwner 2 0x50 = false ∧ (q 0x82).jqOwner 2 0x60 = true ∧ (q 0x82).jqSize 2 = 4 ∧ (q 2).bit Reg.WV_JOBCTRL 1 = false ∧
    (ph .draining).jobNum 3 = some { job0 with phase := .draining } ∧ (ph .saving).jobNum 3 = some { job0 with phase := .saving } ∧
    s.jobNum 3 = some { job0 with phase := .restoring } ∧ s.physOf 0 = some 0 ∧ s.saveArea job0 + 0x266000 ≤ s.dramBytes ∧
    s.dramBytes ≤ 0x1000000000 ∧ job0.spOff + job0.spSize ≤ 0x200000 ∧ s.badRange (s.saveArea job0 + 0x240000) 8192 = false ∧
    ((({ run0 with dram := DramSt.init } : State).badRange 0 128)) = true ∧ (0x1000000 : Word).toNat / 65536 % 1024 = 256 ∧
    ((st [(Reg.WV_LPT_STAT, 0x100)]).bit Reg.WV_LPT_STAT 8) = true ∧ (st [(Reg.WV_LPT_STAT, 0x100)]).looseError [0] = none := by decide +kernel

/-- Every channel of run0 is sound. -/
theorem witness_jobs_channels : ∀ a, run0.chanDead a = false := by
  intro a
  have h : run0.regN Reg.DMC_FAULT = 0 := by decide +kernel
  simp [State.chanDead, h]

/-- An Ethernet frame of 60 bytes for a port's own address, its FCS right. -/
def framed (body : List Nat) : List (BitVec 8) := (body ++ leBytes 4 (crc32 body)).map (fun b => BitVec.ofNat 8 b)
def ethBody (type : Nat) (data : List Nat) : List Nat := List.replicate 12 0xFF ++ beBytes 2 type ++ data ++ List.replicate (46 - data.length) 0

/-- An RTP packet in UDP in IPv4: version 2, type 96, sequence number 7, timestamp 9, source 0; two bytes of payload. -/
def rtpData : List Nat :=
  [0x45, 0, 0, 42, 0, 0, 0, 0, 64, 17, 0x7A, 0xC4] ++ List.replicate 8 0 ++ [0, 0, 0x13, 0x88, 0, 22, 0, 0] ++
    [0x80, 96, 0, 7, 0, 0, 0, 9, 0, 0, 0, 0] ++ [0x26, 1]

/-- CameraIngest: frames of each class; a queue with a free entry; a stream that takes the packet; a port that sends; an entry that is
enabled; an access unit that times out. -/
theorem witness_ingest :
    let port := st [(Reg.NET_CTRL 0, 1), (Reg.DMC_CAP, 8192)]
    let arp := ethBody 0x0806 []
    let ipv4 := ethBody 0x0800 rtpData
    let frag := ethBody 0x0800 ([0x45, 0, 0, 40, 0, 0, 0x20, 0, 64, 17] ++ List.replicate 30 0)
    let bad := ethBody 0x0800 ([0x45, 0, 0, 40, 0, 0, 0, 0, 64, 17, 1, 1] ++ List.replicate 28 0)
    port.macOk 0 arp = true ∧ State.reset.bit (Reg.NET_CTRL 0) 0 = false ∧ arp.length = 60 ∧ tagOf arp = some (none, 0x0806, 14) ∧
    classify 0x0806 (arp.drop 14) = .toSw ∧ classify 0x0800 (frag.drop 14) = .dropIp ∧ classify 0x0800 (bad.drop 14) = .dropCsum ∧
    classify 0x0800 (ipv4.drop 14) = .udp 5000 ([0x80, 96, 0, 7, 0, 0, 0, 9, 0, 0, 0, 0] ++ [0x26, 1]) ∧
    (let s := (port.setRegN (Reg.NET_SWQ_CFG 0) 0x104)
     s.bit (Reg.NET_SWQ_CFG 0) 8 = true ∧ (s.fld (Reg.NET_SWRX_TAIL 0) 0 10 + 1) % 16 ≠ s.fld (Reg.NET_SWRX_HEAD 0) 0 10 % 16 ∧
      s.reg64 (Reg.NET_SWRX_BASE_LO 0) % 2 ^ 40 + 2048 ≤ s.dramBytes ∧ s.chanDead 0 = false) ∧
    (let s := st [(Reg.NET_CTRL 0, 1), (streamWord 0 0, 5000 + 96 * 0x1000000 + 0x30000), (streamWord 0 2, 0x2000), (streamWord 0 6, 16),
      (streamWord 0 7, 4096)]
     s.streamMatch 0 0 5000 none = true ∧ s.entry 0 3 8 = 96 ∧ s.bit (streamWord 0 0) 19 = false ∧ s.regN (streamWord 0 1) = 0 ∧
      s.recv 0 = Recv.init ∧ (nalsOf (s.bit (streamWord 0 0) 20) [⟨65543, false, [0x26, 1]⟩]).size ≤ min (s.regN (streamWord 0 7)) (s.ringRoom 0) ∧
      s.streamOn 0 = true) ∧
    (let s := st [(Reg.NET_CTRL 2, 1), (Reg.NET_SWQ_CFG 2, 0x240), (Reg.NET_SWTX_TAIL 2, 1)]
     s.bit (Reg.NET_SWQ_CFG 2) 9 = true ∧ s.fld (Reg.NET_SWTX_HEAD 2) 0 10 % 16 ≠ s.fld (Reg.NET_SWTX_TAIL 2) 0 10 % 16) ∧
    State.reset.streamOn 0 = false ∧
    (let au : OpenAu := ⟨9, 0, 0, [⟨65543, false, [0x26, 1]⟩]⟩
     let s := fun (t : Nat) => timed ({ State.reset with ingest := { IngestSt.init with recv := [(0, { Recv.init with au := some au })] } }) t
     ((s 0).recv 0).au = some au ∧ 0 < (s 0).time + 1000 ∧ ¬ (s 0).time + 1000 ≤ 0) := by decide +kernel

/-- A variant with one decode slot, one in-line and one memory entry of the ISP timetable, and a pool of two buffers. -/
def var1 : Variant := { var0 with dec := [⟨2, 0, 0, 5, 0xFFFF, 1, 9⟩], isp := [⟨2, 0, 0, 0, 100, 0xFFFF, 1, 0⟩, ⟨2, 1, 1, 0, 0, 0xFFFF, 1, 9⟩] }
def im1 : Image := { im0 with variants := [var1], pools := [⟨1, 2, 1, 2, 0x100000, 0x1000⟩] }

/-- The weave with that variant at pick 2 of its tick. -/
def wov1 : State := timed ({ wov0 with weave := { wov0.weave with active := some im1 } } : State) 2000

/-- A stamped frame. -/
def stamped0 : Stamped := ⟨4, 100, 0, 3, 0, 9, 0, 64, none, none, false⟩

/-- DecodeSlots: no frame, a whole IRAP unit, one that is not whole; a run that completes, and at and before its deadline. -/
theorem witness_decode :
    let d : DecSlot := ⟨2, 0, 0, 5, 0xFFFF, 1, 9⟩
    let with_ := fun (f : Stamped) => ({ wov1 with ingest := { IngestSt.init with pend := [(5, [f])] } } : State)
    let pend := fun (s : State) => Tbl.get (fun _ => []) s.ingest.pend 5
    let r : DecRun := ⟨5, stamped0, [4], 1, 0, 0xFFFF, 0, 0, 11⟩
    let run := fun (t : Nat) => timed ({ wov1 with vdec := { VdecSt.init with runs := [(0, some r)] } } : State) t
    wov1.variant = some var1 ∧ var1.dec[0]? = some d ∧ wov1.ticking = true ∧ wov1.vdec.opened = [] ∧ d.pick ≤ wov1.offset ∧
    Tbl.get (fun _ => none) wov1.vdec.runs 0 = none ∧ pend wov1 = [] ∧ pend (with_ stamped0) = [stamped0] ∧ wov1.physDec 0 = some 0 ∧
    stamped0.whole = true ∧ stamped0.irap = true ∧ ({ stamped0 with flags := 2 } : Stamped).whole = false ∧
    wov1.poolConf 1 = some ⟨1, 2, 1, 2, 0x100000, 0x1000⟩ ∧ wov1.vdec.bufs = [] ∧
    Tbl.get (fun _ => none) (run 11000).vdec.runs 0 = some r ∧ (run 11000).outSet r.outputs = [] ∧ r.core ≤ 16 ∧ (run 10999).pickNow < r.last ∧
    r.last ≤ (run 11000).pickNow := by decide +kernel

/-- EncodersAndTimebase: a queue of four descriptors with room and without, an encoder with one waiting, each weave state, a rest. -/
theorem witness_encoders :
    let s := st [(Reg.VENC_QCFG 1, 0x102), (Reg.VENC_QTAIL 1, 1), (Reg.DMC_CAP, 8192)]
    s.encSize 1 = 4 ∧ s.fld (Reg.VENC_QTAIL 1) 0 10 < 4 ∧ s.fld (Reg.VENC_QHEAD 1) 0 10 < 4 ∧ s.bit (Reg.VENC_QCFG 1) 8 = true ∧
    s.fld (Reg.VENC_QHEAD 1) 0 10 % 4 ≠ s.fld (Reg.VENC_QTAIL 1) 0 10 % 4 ∧ s.weaveState ≠ 6 ∧ s.encEntry 1 0 + 64 ≤ s.dramBytes ∧
    encBad 1 ([0, 0, 0, 0, 0, 0, 0, 0] ++ leBytes 2 64 ++ leBytes 2 64 ++ leBytes 2 64 ++ List.replicate 50 1) = false ∧
    ({ State.reset with stepRest := 5 } : State).stepRest ≠ 0 ∧ State.reset.stepRest = 0 := by decide +kernel

/-! ### Pixel ports, ISP, DRAM and faults -/

/-- PixelPorts: a port enabled and not; an unfinished and a finished frame in a buffer; a line of the set width in DE mode; times at
which a frame and the signal run out. -/
theorem witness_pixel :
    let f : PixFrame := ⟨0, 50, some (1, 0), 0, 0, 0, [], false, false⟩
    let port := fun (g : PixFrame) => ({ wov1 with isp := { IspSt.init with ports := [(0, { PixSt.init with frame := some g })] } } : State)
    let de := ((port f).setRegN (Reg.PIX_CFG 0) 0x80).setRegN (Reg.PIX_GEOM 0) 0x20004
    let stamp := ({ port { f with done := true } with weave := { wov1.weave with bound := [0x400] } } : State)
    ((st [(Reg.PIX_CTRL 0, 1)]).bit (Reg.PIX_CTRL 0) 0) = true ∧ ((port f).pixPort 0).frame = some f ∧ de.bit (Reg.PIX_CFG 0) 7 = true ∧
    de.fld (Reg.PIX_GEOM 0) 0 13 = 4 ∧ de.inline 0 = false ∧ de.fld (Reg.PIX_CFG 0) 0 3 = 0 ∧ de.dramBytes ≤ 2 ^ 36 ∧
    de.bufAddr 1 0 + 4 ≤ de.dramBytes ∧ de.chanDead (de.bufAddr 1 0) = false ∧
    ((stamp.pixPort 0).frame.map (fun g => g.done)) = some true ∧ stamp.weaveState = 4 ∧ stamp.weave.bound.contains 0x400 = true ∧
    Tbl.get (fun _ => []) stamp.ingest.pend 0x400 = [] ∧ 0 + 1000 * (port f).fld (Reg.PIX_TIMEOUT 0) 0 20 < (timed (port f) (2 ^ 40)).time ∧
    State.reset.bit (Reg.PIX_STATUS 0) 0 = false ∧ ((st [(Reg.PIX_STATUS 0, 1)]).bit (Reg.PIX_STATUS 0) 0) = true ∧
    (st [(Reg.ISP_CFG, 0x100)]).fld Reg.ISP_CFG 8 8 = 1 := by decide +kernel

/-- IspSlots: no frame, a frame closed badly, an in-line one, one for a memory pass; a pass at and before its deadline. -/
theorem witness_isp :
    let o : FrameOut := ⟨100, 4, 2, 1, 0, 0, 0, 0, [], 4, 0⟩
    let with_ := fun (f : Stamped) => ({ wov1 with ingest := { IngestSt.init with pend := [(0x400, [f])] } } : State)
    let r : IspRun := ⟨0, { stamped0 with buffer := some (1, 1) }, 1, 0, 0xFFFF, 0, 11⟩
    let run := fun (t : Nat) => timed ({ wov1 with isp := { IspSt.init with pass := some r } } : State) t
    (State.reset.windowOk 0 = true ∨ State.reset.windowOk 0 = false) ∧ wov1.variant = some var1 ∧ var1.isp.length = 2 ∧
    wov1.ticking = true ∧ wov1.isp.opened = [] ∧ wov1.isp.pass = none ∧ 2 ≤ wov1.offset ∧
    Tbl.get (fun _ => []) (with_ { stamped0 with outcome := 2 }).ingest.pend 0x400 = [{ stamped0 with outcome := 2 }] ∧
    ({ stamped0 with out := some o } : Stamped).outcome = 0 ∧ wov1.poolConf 1 = some ⟨1, 2, 1, 2, 0x100000, 0x1000⟩ ∧ wov1.vdec.bufs = [] ∧
    (run 11000).isp.pass = some r ∧ r.frame.buffer.isSome = true ∧ (run 11000).outSet r.outputs = [] ∧ (run 10999).pickNow < r.last ∧
    r.last ≤ (run 11000).pickNow := by decide +kernel

/-- DramController: the controller idle, initialising and ready; a cached line and one that is not; a due refresh, a queued read, a
read in flight; refresh management due; a quiet window; an idle rank, an idle row and an old request. -/
theorem witness_dram :
    let req : ChanReq := ⟨3, 2, 5, 0, false, 0, false, false, false, 0, 0, false⟩
    let at_ := fun (c : ChanSt) => ({ run0 with dram := { run0.dram with chans := [(0, c)], rfm := 4 } } : State)
    let init := st [(Reg.DMC_STATUS, 2)]
    let hit := ({ run0 with dram := { run0.dram with cache := [(3, { ways := [(0, some ⟨3, false⟩)], tree := 0 })] } } : State)
    State.reset.bit Reg.DMC_STATUS 1 = false ∧ State.reset.dramReady = false ∧ init.bit Reg.DMC_STATUS 1 = true ∧ init.dramReady = false ∧
    init.boot.rest = none ∧ init.weaveState ≠ 3 ∧ run0.dramReady = true ∧
    ((run0.putBit Reg.DMC_STATUS 1 true).bit Reg.DMC_STATUS 1 = true ∧ (run0.putBit Reg.DMC_STATUS 1 true).dramReady = true) ∧
    128 * (3 + 1) ≤ run0.dramBytes ∧ (hit.scSet 3).way 0 = some ⟨3, false⟩ ∧ run0.chanFault 0 = false ∧ (run0.scSet 3).way 0 = none ∧
    (((at_ { ChanSt.init with due := [(2, 9)] }).countHeld 0).nextRefresh 0 true).isSome = true ∧
    ((at_ { ChanSt.init with reads := [req] }).countHeld 0).nextRefresh 0 true = none ∧
    (((at_ { ChanSt.init with reads := [req] }).countHeld 0).nextReq 0).isSome = true ∧
    ((at_ { ChanSt.init with flight := [req] }).chan 0).flight = [req] ∧ run0.lineBad 3 = false ∧
    ({ run0 with badLines := [(3, true)] } : State).lineBad 3 = true ∧ (at_ { ChanSt.init with raa := [(2, 4)] }).rfmDue 0 2 = true ∧
    run0.pickNow % 64 = 4 * 0 % 64 ∧ (run0.chan 0).lastQuiet ≠ some run0.pickNow ∧
    ((at_ { ChanSt.init with windows := 3 }).chan 0).windows % 4 = 3 ∧
    (timed (run0.setRegN Reg.DMC_PD 100) 100000).fld Reg.DMC_PD 0 16 = 100 ∧
    Tbl.get (fun _ => none) ((at_ { ChanSt.init with rows := [(2, some (5, 0))] }).chan 0).rows 2 = some (5, 0) ∧
    (run0.setRegN Reg.DMC_PAGE 100).bit Reg.DMC_CFG 3 = false ∧
    ((timed (at_ { ChanSt.init with reads := [req] }) 200000).chan 0).reads.any (fun r => decide (r.since + 100000 < 200000)) = true := by
  decide +kernel

/-- FaultsAndScrub: a noted word, a spare left; a range that a pass may take; a pass that has read its lines, that is aborted, and that
has lines left. -/
theorem witness_faults :
    let noted := ({ run0 with dram := { run0.dram with recheck := [(SramKind.scratchpad, 0, 3)] } } : State)
    let k : ScrubSt := ⟨0, 128, 128, 0, 0, none, 0, 0, false, false⟩
    let pass := fun (x : ScrubSt) => ({ run0 with dram := { run0.dram with scrub := some x } } : State)
    noted.dram.recheck = [(SramKind.scratchpad, 0, 3)] ∧ noted.dram.repairs = [] ∧ tagKey (coreBase 0) = some (0, 0) ∧ bare0.coreState 0 ≠ 3 ∧
    bare0.roleOf 0 = none ∧ bare0.failover 0 = none ∧
    (let s := (run0.setReg64 Reg.SCRB_START_LO 128).setReg64 Reg.SCRB_LEN_LO 256
     s.reg64 Reg.SCRB_START_LO % 128 = 0 ∧ s.reg64 Reg.SCRB_START_LO + s.reg64 Reg.SCRB_LEN_LO ≤ s.dramBytes ∧ s.bit Reg.SCRB_STATUS 0 = false) ∧
    (pass k).dram.scrub = some k ∧ k.stop ≤ k.next ∧ { k with next := 0 }.next < k.stop ∧ { k with abort := true }.abort = true ∧
    ((List.range 16).any (fun ch => (((pass k).chan ch).reads ++ ((pass k).chan ch).flight).any (fun r => r.scrub))) = false := by decide +kernel

/-! ### Power and resets -/

/-- PowerGovernor: an unlocked profile register; a die that is due, one that may rise; a voltage sent that suffices and that does not;
hints; a droop marked and not; a rail that is faulty. -/
theorem witness_power :
    let alarm := (st [(Reg.CLU_THERMST 0, 1)]).modCore 0 id
    let die := fun (s : State) (r : Rail) => ({ s with power := { s.power with rails := [(0, r)] } } : State)
    let up := (die (timed State.reset 2000000) { Rail.init with goal := State.reset.dieStep 0 })
    let hint := ({ State.reset with weave := { WeaveSt.init with hints := [(0, 1, 0)] } } : State)
    State.reset.bit Reg.PWR_LOCK 0 = false ∧ State.reset.imageProfiles = [] ∧ (45 : Word).toNat % 256 = 45 ∧ (46 : Word).toNat % 256 ≠ 45 ∧
    (die alarm { Rail.init with goal := 3 }).thermalDue 0 = true ∧ ((die alarm { Rail.init with goal := 3 }).rail 0).faulty = false ∧
    0 < ((die alarm { Rail.init with goal := 3 }).rail 0).goal ∧ up.thermalDue 0 = false ∧ up.powerDue = false ∧ up.bit Reg.PWR_CTRL 0 = false ∧
    (up.setRegN Reg.PWR_UPMARGIN 0).power.fixedIn = none ∧
    ((die State.reset { Rail.init with sending := some 800 }).rail 0).sending = some 800 ∧ (State.reset.rail 0).sending = none ∧
    hint.weave.hints.find? (fun h => decide (h.2.2 ≤ hint.pickNow)) = some (0, 1, 0) ∧ State.reset.bit (Reg.CLU_THERMST 0) 2 = false ∧
    ((st [(Reg.CLU_THERMST 0, 4)]).bit (Reg.CLU_THERMST 0) 2) = true ∧
    ((die State.reset { Rail.init with faulty := true }).rail 0).faulty = true := by decide +kernel

/-- PowerGovernor: a part with one die whose only die may step up. -/
theorem witness_power_rise :
    let s := timed (st [(Reg.SYS_PARTID, 0x480), (Reg.PWR_LOOSEK, 16)]) 2000000
    let t := ({ s with power := { s.power with rails := [(0, { Rail.init with goal := s.dieStep 0 })] } } : State)
    t.dies = 1 ∧ ((List.range 4).foldl (fun u c => ((u.setRegN (Reg.PWR_TEMP (3 * c)) (4096 + 400)).setRegN (Reg.PWR_TEMP (3 * c + 1)) (4096 + 400)).setRegN
      (Reg.PWR_TEMP (3 * c + 2)) (4096 + 400)) t).mayRise 0 = true := by decide +kernel

/-- PowerSupervision: a die with a regulator; a mailbox that is free and one that runs; a sensor of each part; an emergency; a fan without
pulses; a unit that waits, and one that wakes. -/
theorem witness_supervision :
    let power := fun (f : PowerSt → PowerSt) => ({ State.reset with power := f PowerSt.init } : State)
    ((st [(Reg.PMB_RAIL0, 0x10000)]).bit (Reg.PMB_RAIL0 + 4 * 0) 16) = true ∧ State.reset.power.mbx = none ∧
    (power (fun w => { w with mbx := some 0x80 })).power.mbx = some 0x80 ∧ (0x80 : Nat).testBit 7 = true ∧ (0x100000 : Word).getLsbD 20 = true ∧
    field (0x100000 : Word).toNat 16 4 = 0 ∧ field (0x190000 : Word).toNat 16 4 = 9 ∧ (st [(Reg.SYS_PARTID, 0x480)]).dies = 1 ∧ State.reset.dies = 2 ∧
    (power (fun w => { w with emergency := some 0 })).power.emergency ≠ none ∧ State.reset.power.emergency = none ∧
    (power (fun w => { w with queue := [0, 8] })).power.queue.find? (fun v => wakeClass v == wakeClass 0) = some 0 ∧
    0 ∈ (power (fun w => { w with waking := [0] })).power.waking := by decide +kernel

/-- ResetSources: START and SERVICE; each kind of entry of the reset map; a watchdog at its timeout and one pick before it; the values of a
kick; masters; a stopped core and one that is not; targets that are accepted and not. -/
theorem witness_reset_sources :
    let idle := fun (s : State) => ({ s with rst := { s.rst with phase := .none } } : State)
    let count := fun (n : Nat) => ({ State.reset with rst := { ResetSt.init with swCount := n, awCount := n } } : State)
    (idle State.reset).rst.phase = .none ∧ State.reset.rst.phase ≠ .none ∧ State.reset.rstLevel = 0 ∧ (idle State.reset).bit Reg.RST_REGIME 0 = false ∧
    (st [(Reg.RST_REGIME, 1)]).bit Reg.RST_REGIME 0 = true ∧ State.reset.mapEntry 7 = 1 ∧ State.reset.mapEntry 5 = 3 ∧ homeBlock 5 = some 0x50 ∧
    (st [(Reg.RST_MAP0, 7 * 2 ^ 18)]).mapEntry 8 = 7 ∧ (st [(Reg.RST_MAP0, 3 * 2 ^ 15)]).mapEntry 7 = 3 ∧ homeBlock 7 = none ∧
    1000 * State.reset.fld Reg.RST_SWDT 0 16 = 2000000 ∧ (count 2000000).rst.swCount = 2000000 ∧ (count 1999999).rst.swCount < 2000000 ∧
    ((st [(Reg.RST_AWDT, 0x10001)]).bit Reg.RST_AWDT 16) = true ∧ (0x4B49 : Word).toNat % 65536 = 0x4B49 ∧ rstMaster 0x61 = true ∧
    rstMaster 0x60 = false ∧ (State.reset.hasCore 0 && State.reset.coreStopped 0) = true ∧ (run0.hasCore 0 && run0.coreStopped 0) = false ∧
    State.reset.l3Accepted (32 * 1 + 0) = true ∧ State.reset.l3Accepted 0 = false := by decide +kernel

/-- ResetEndsAndBoot: each phase, with the pin low and released; a strapped test mode; an L1 release with no source and with PCIe first; a
push that is expected. -/
theorem witness_reset_ends :
    let at_ := fun (f : ResetSt → ResetSt) => ({ State.reset with rst := f ResetSt.init } : State)
    let run : BootRun := { sources := [4, 1], tried := 0, manifest := [], blocks := 0, failed := false }
    let booting := fun (b : BootRun) => ({ st [(Reg.SEC_PUSHSTAT, 1)] with boot := { BootSt.init with run := some b } } : State)
    (at_ (fun r => { r with phase := .stretch })).rst.tripped = false ∧ (at_ (fun r => { r with phase := .stretch, pinLow := true })).rst.pinLow = true ∧
    (at_ (fun r => { r with phase := .held })).rst.phase = .held ∧ State.reset.rst.phase = .release ∧ State.reset.bit Reg.RST_REGIME 2 = false ∧
    State.reset.rstLevel = 0 ∧ (st [(Reg.RST_CAUSE, 0x12)]).rstLevel = 1 ∧ (st [(Reg.RST_CAUSE, 0x2A)]).rstLevel = 2 ∧
    (at_ (fun r => { r with l3 := [0x50] })).rst.l3.contains 0x50 = true ∧
    (st [(Reg.FUSE_BOOTORD0, 0)]).bootOrder = [] ∧ (st [(Reg.FUSE_BOOTORD0, 0x1C)]).bootOrder = [4, 3] ∧
    ((st [(Reg.RST_STRAP, 0x10)]).bit Reg.RST_STRAP 4) = true ∧ State.reset.boot.run = none ∧ (booting run).boot.run = some run ∧
    (booting run).bit Reg.SEC_PUSHSTAT 0 = true ∧ run.failed = false ∧ ({ run with sources := [4] } : BootRun).sources.drop 1 = [] := by decide +kernel

/-! ### Images that pass their checks -/

/-- A manifest of a type for one block, "abc", signed outside the model with the private key 5. -/
def manifestOf (type sig : Nat) : List Nat :=
  leBytes 4 0x4E414D4B ++ [1, 0, type, 0] ++ leBytes 2 2 ++ [0, 0] ++ leBytes 4 0x01020003 ++ leBytes 2 0x960 ++ [0, 0] ++ leBytes 4 1 ++ leBytes 8 3 ++
    List.replicate 16 0 ++
    beBytes 96 0x11de24a2c251c777573cac5ea025e467f208e51dbff98fc54f6661cbe56583b037882f4a1ca297e60abcdbc3836d84bc8fa696c77440f92d0f5837e90a00e7c5284b447754d5dee88c986533b6901aeb3177686d0ae8fb33184414abe6c1713a ++
    List.replicate 112 0 ++ beBytes 48 0xcb00753f45a35e8bb5a03d699ac65007272c32ab0eded1631a8b605a43ff5bed8086072ba1e7cc2358baeca134c825a7 ++ beBytes 96 sig

/-- Of steward firmware, and of a threader. -/
def stewardManifest : List Nat := manifestOf 1 0xdcb85e46aaca0bdec564fe9da03f4e8d3949feccba3be65ed01757f18203e8df3ca70113cc22431880b2ac710aac3cc7cb4ecdc1c9d1f650ac723844e9a0371cc54bee3a326ba1a8e9e09e0c006a128028cb202c614bb9314af0959fb62c2534
def threaderManifest : List Nat := manifestOf 3 0xdcb85e46aaca0bdec564fe9da03f4e8d3949feccba3be65ed01757f18203e8df3ca70113cc22431880b2ac710aac3cc743486d62a62e541b5e1150cc4b2fa821d0ade2f98164d1858a8cd37c55a14daf12ef7490b2b917e6aa29a17dfd974ff0

/-- The part with that key fused as key 0. -/
def keyed : State :=
  State.reset.setRegBytes (Reg.FUSE_KEYHASH 0) (beBytes 48 0x3966d6c7e6a199e21807f0f8347406aa40aa59c18578b061c2bcafb3da86b24ecd4da2100402993d56c9b5e1f6b0f369)

/-- The part with an image in its pending slot. -/
def pendingSlot (m : List Nat) : State :=
  let s := keyed.slotPut 0 (m ++ List.replicate (4096 - m.length) 0 ++ [97, 98, 99])
  { s with boot := { s.boot with pending := some 1 } }

/-- Security, ResetEndsAndBoot, StoredAndUpdates: a manifest that R440 accepts, and a part without its key. -/
theorem witness_manifest : keyed.manifestOk stewardManifest = true ∧ manType stewardManifest = 1 ∧
    State.reset.manifestOk stewardManifest = false := by decide +kernel

/-- Security: a good image in a half. -/
theorem witness_half :
    (({ keyed with boot := { BootSt.init with half1 := stewardManifest } } : State).setBytes (halfBase 1) [97, 98, 99]).halfOk 1 = true := by decide +kernel

/-- StoredAndUpdates: a pending slot with a steward image. -/
theorem witness_update : (pendingSlot stewardManifest).pendingImages = [⟨stewardManifest, [97, 98, 99]⟩] ∧
    blocksOk stewardManifest [97, 98, 99] = true ∧ keyed.handRefused = false ∧ State.reset.pendingImages = [] ∧
    (sha384 (blockOf stewardManifest [97, 98, 99] 0) == manHash stewardManifest 0) = true := by decide +kernel

/-- StoredAndUpdates: a pending slot with a threader. -/
theorem witness_threader :
    (pendingSlot threaderManifest).pendingImages.find? (fun im => manType im.manifest == 3) = some ⟨threaderManifest, [97, 98, 99]⟩ ∧
    keyed.imageOk ⟨threaderManifest, [97, 98, 99]⟩ = true := by decide +kernel

/-- Security: masters, each handover state, a recovery regime, a fuse bit that may be programmed, a report in progress. -/
theorem witness_security :
    let hand := fun (n : Nat) => State.reset.setFld Reg.SEC_HANDOVER 0 5 n
    (5 : BitVec 8).toNat ≠ 0x61 ∧ (0x102 : Word).getLsbD 8 = true ∧ (0x102 : Word).toNat % 8 = 2 ∧ (0x101 : Word).toNat % 8 < 2 ∧
    State.reset.fld Reg.SEC_SVN 0 16 < field (0x10000 : Word).toNat 16 16 ∧ field (0 : Word).toNat 16 16 ≤ State.reset.fld Reg.SEC_SVN 0 16 ∧
    State.reset.boot.attesting = false ∧ State.reset.place 0 640 = .err ∧ run0.place 0x1000 640 = .dram 0x1000 ∧ State.reset.handState = 0 ∧
    ((List.range 32).map (fun n => (hand n).handState)).contains 1 = true ∧ ((List.range 32).map (fun n => (hand n).handState)).contains 2 = true ∧
    State.reset.bit Reg.RST_REGIME 1 = false ∧ (st [(Reg.RST_REGIME, 2)]).bit Reg.RST_REGIME 1 = true ∧
    (st [(Reg.FUSE_LIFECYCLE, 1)]).fuseField 32 = true ∧ State.reset.fuseField 0 = false ∧ State.reset.boot.fuseBusy = none ∧
    State.reset.halfOk 1 = false := by decide +kernel

/-! ### The dictionary and the host -/

/-- A message of a client: service, request 7, an object, flags, argument, data. -/
def msgOf (service index sub flags arg : Nat) (data : List Nat) : List Nat :=
  [1, service] ++ leBytes 2 7 ++ leBytes 2 index ++ [sub, flags] ++ leBytes 4 arg ++ leBytes 2 data.length ++ [0, 0] ++ data

/-- Session 0 open. -/
def opened (q : Session) : State := State.reset.setSession 0 (some q)

/-- DictionaryMessages: well-formed and malformed messages of each service; objects of each access, a value of each size; transfers at each
segment; a subscription with events open; a handshake by the configured root. -/
theorem witness_dictionary :
    let s := opened Session.init
    let read := { req := 7, index := 0x1010, sub := 0, write := false, data := List.replicate 2049 1, total := 2049, seg := 0 : Transfer }
    let write := { read with write := true }
    let long := ({ s with dict := { s.dict with vals := Tbl.set (fun _ => none) [] (256 * 0x1010) (some (List.replicate 1025 1)) } } : State)
    (s.session 0).isSome = true ∧ s.bit Reg.STW_STATUS 3 = false ∧ (State.reset.session 0).isNone = true ∧
    [1, 2, 3, 4, 5, 6, 8, 9].all (fun k => msgOk (msgOf k 0x1010 0 1 0 []) && (readMsg (msgOf k 0x1010 0 1 0 [])).service == k) = true ∧
    msgOk (msgOf 7 0 0 0 0 []) = false ∧ msgOk ((msgOf 1 0 0 0 0 []).take 15) = false ∧
    s.heldResponse 0 7 1 = none ∧ (opened { Session.init with held := [((7, 1), [1])] }).heldResponse 0 7 1 = some [1] ∧
    lookupObj 0xF000 0 = .noIndex ∧ lookupObj 0x9001 9 = .noSub ∧ lookupObj 0x9003 0 = .found (oU16 .rws (.value [0xC0, 0xC1])) ∧
    (match lookupObj 0x1000 0 with | .found o => o.acc == .ro || o.acc == .const | _ => false) = true ∧
    badLength (oU16 .rws (.value [0xC0, 0xC1])) 2 = false ∧ badLength (oU16 .rws (.value [0xC0, 0xC1])) 3 = true ∧
    outOfRange 0x9001 ((oU8 .rws (.value [0])).within 0 2) 3 = true ∧ outOfRange 0x9001 ((oU8 .rws (.value [0])).within 0 2) 2 = false ∧
    ((long.objVal 0x1010 0).getD []).length = 1025 ∧ (s.xfersOf 0).length < 4 ∧
    (opened { Session.init with xfers := [read, { read with req := 8 }, { read with req := 9 }, { read with req := 10 }] }).xfersOf 0 ≠ [] ∧
    (opened { Session.init with xfers := [read] }).xferOf 0 7 false = some read ∧ (opened { Session.init with xfers := [write] }).xferOf 0 7 true = some write ∧
    1024 * 2 < read.total ∧ read.total ≤ 1024 * (2 + 1) ∧ streamed 0x1010 = false ∧ s.segmentedCode 0 (readMsg (msgOf 3 0x1010 0 0 64 [])) ≠ 0 ∧
    (let u : Subscription := { cls := 1, open_ := [3], from_ := 4, repeats := 30, lost := false }
     ((opened { Session.init with sub := some u }).session 0).bind (fun q => q.sub) = some u ∧ u.open_ ≠ []) := by decide +kernel

/-- StoredAndUpdates: a record that waits, a level that was asked for, an NVM write in progress. -/
theorem witness_stored :
    ({ State.reset with dict := { DictSt.init with stores := [{ record := List.replicate 32 0, defaults := false }] } } : State).dict.stores ≠ [] ∧
    State.reset.dict.stores = [] ∧ ({ State.reset with rst := { ResetSt.init with dictLevel := some 1 } } : State).rst.dictLevel = some 1 ∧
    ¬ ((64 : Nat) = 0 ∨ 64 < 64 ∨ 256 < 0 % 256 + 4 * 64) ∧ (256 : Nat) < 4 % 256 + 4 * 64 ∧ State.reset.bit Reg.NVM_STATUS 0 = false ∧
    ({ State.reset with host := { PortSt.init with nvm := some (0, [1]) } } : State).host.nvm = some (0, [1]) := by decide +kernel

/-- HostInterfaces: a free and a held mailbox with a response waiting; a ring; a vector that is up and open; BARs open and shut with each
kind of place; a pin; the first millisecond; MDIO and a frame for MNET. -/
theorem witness_host :
    let held := st [(Reg.STW_CLAIM, 0x5001)]
    let up := st [(Reg.PCIE_STATUS, 0x201), (Reg.PCIE_MSIX_CTRL 0, 0)]
    let open_ := ({ run0 with regs := (run0.setRegN Reg.PCIE_STATUS 1).regs } : State)
    State.reset.bit Reg.STW_CLAIM 0 = false ∧ held.holds 0x57 = true ∧ held.holds 0x60 = false ∧
    ({ held with host := { PortSt.init with rsp := [[1, 2]] } } : State).host.rsp = [[1, 2]] ∧ State.reset.host.vectors = (List.range 32).filter State.reset.vectorUp ∧
    up.vectorOpen 0 = true ∧ State.reset.vectorOpen 0 = false ∧ State.reset.vectorUp 0 = false ∧ State.reset.barsOpen = false ∧ open_.barsOpen = true ∧
    (open_.barPlace false 0x1 4).2 = .err ∧ (open_.barPlace true (2 ^ 33 - 2 ^ 33) 64).2 ≠ .err ∧ open_.badRange 0 64 = false ∧
    State.reset.bit Reg.TBS_PPS 0 = false ∧ ((st [(Reg.TBS_PPS, 1)]).bit Reg.TBS_PPS 0) = true ∧ State.reset.time % 1000000000 < 1000000 ∧
    ¬ ((timed State.reset 1000000).time % 1000000000 < 1000000) ∧ State.reset.bit Reg.MNET_MDIO_STAT 0 = false ∧
    ({ State.reset with host := { PortSt.init with mdio := some 0x400 } } : State).host.mdio = some 0x400 ∧
    State.reset.macOk 2 (List.replicate 6 0xFF) = true := by decide +kernel

/-- MemoryCanonical: reset, in which a command takes its step. -/
theorem witness_canonical : Memory.wf State.reset.mem = true ∧
    nextIs (step { State.reset with pending := [.pickBoundary] }) (fun t => t.pending == [] && t.time == 1000) = true := by decide +kernel

/-! ### What single commands do -/

/-- An empty queue idles (assumption 1). -/
theorem test_step_idles : nextIs (step State.reset) (fun t => decide (t = State.reset)) = true := by decide +kernel

/-- 16, worked example: in START, source 2 at L1 leaves RST_CAUSE = 0x12 and RST_SRCSEEN = 0x4. -/
theorem test_reset_pin : nextIs (exec .sysResetNLow { State.reset with rst := { ResetSt.init with phase := .none } }) (fun t =>
    t.regN Reg.RST_CAUSE == 0x12 && t.regN Reg.RST_SRCSEEN == 4) = true := by decide +kernel

/-- FIPS 180-4: SHA-384 of "abc". -/
theorem test_sha384 : sha384 [97, 98, 99] =
    beBytes 48 0xcb00753f45a35e8bb5a03d699ac65007272c32ab0eded1631a8b605a43ff5bed8086072ba1e7cc2358baeca134c825a7 := by decide +kernel

/-- The check value of CRC-32C and of CRC-32 over "123456789". -/
theorem test_crc : crc32c [49, 50, 51, 52, 53, 54, 55, 56, 57] = 0xE3069283 ∧ crc32 [49, 50, 51, 52, 53, 54, 55, 56, 57] = 0xCBF43926 := by
  decide +kernel

/-- ADD wraps, and pc goes on. -/
theorem test_add : nextIs (exec (.add w0 ⟨2, 1, .imm 2⟩) (withCtx run0 { Context.init with s := [(1, 0xFFFFFFFF)] })) (fun t =>
    (t.core 0).woven.getS 2 == 1 && (t.core 0).woven.pc == 1) = true := by decide +kernel

/-- A program write reaches program memory of a PARKED core only. -/
theorem test_program_write : nextIs (exec (.programWrite 0 4 0xAABBCCDD) State.reset) (fun t =>
    t.le (coreBase 0 + 0xC00004) 4 == 0xAABBCCDD) = true ∧
    nextIs (exec (.programWrite 0 4 0xAABBCCDD) run0) (fun t => t.bit (Reg.CORE_STATUS 0) 8 && t.mem == []) = true := by decide +kernel

/-! ### Worked examples of the specification in one step -/

/-- 00: core numbering. -/
theorem test_core_numbering : coreBase 47 = 0x105E000000 ∧ physCore 5 2 = 47 := by decide

/-- 04: the pieces of the FP32 value nearest 1/3 and of 3. -/
theorem test_fp32_pieces : bfPieces 0x3EAAAAAB = (0x3EAA, 0x3AAA, 0x36AB) ∧ bfPieces 0x40400000 = (0x4040, 0, 0) := by decide +kernel

/-- 05: levels of bell-4 codes. -/
theorem test_bell4 : [0x5, 0xB, 0x2, 0xF, 0x8].map bell4Level = [278, -159, 111, -512, 0] := by decide

/-- 18, Worked example: raising the profile during a weave. The writes of 45 and 90 and their answers, byte for byte. -/
theorem test_profile_messages :
    let s := wov0.setSession 0 (some Session.init)
    nextIs (exec (.odWrite 0 [0x01, 0x03, 0x11, 0, 0, 0x40, 0, 0x01, 0, 0, 0, 0, 0x01, 0, 0, 0, 0x2D]) s) (fun t =>
      t.dict.sent == [(0, [0x01, 0x05, 0x11, 0, 0, 0x40, 0, 0, 0x22, 0, 0, 0x08, 0, 0, 0, 0])]) = true ∧
    nextIs (exec (.odWrite 0 [0x01, 0x03, 0x12, 0, 0, 0x40, 0, 0x01, 0, 0, 0, 0, 0x01, 0, 0, 0, 0x5A]) s) (fun t =>
      t.dict.sent == [(0, [0x01, 0x83, 0x12, 0, 0, 0x40, 0, 0, 0, 0, 0, 0, 0, 0, 0, 0])] && t.fld Reg.PWR_PROFILE 0 8 == 90) = true := by
  decide +kernel

/-- 16, Worked example: an expiry of the application-core watchdog in SERVICE only sets bit 5 of RST_IRQ_STATUS. -/
theorem test_watchdog_in_service :
    let s := { st [(Reg.RST_REGIME, 1), (Reg.RST_AWDT, 0x10001)] with rst := { ResetSt.init with phase := .none, awCount := 1000 } }
    nextIs (exec .appWatchdogExpiry s) (fun t => t.regN Reg.RST_IRQ_STATUS == 0x20 && t.rst.phase == .none) = true := by decide +kernel

/-- 08, Worked example: a budget rejection on logical core 27; 09, Worked examples: the block of eight bell-4 passes. R91 gives the cycles of
the chains. -/
theorem test_chain_cost :
    chainCost (List.replicate 4 ⟨true, 1, 256, loadCycles 0, gangLatency 0⟩) = 1104 ∧
    chainCost (List.replicate 8 ⟨true, 1, 64, loadCycles 2, gangLatency 0⟩) = 593 := by decide +kernel

/-- R225, R523: WAITPICK 9 then WAITPICK 9 is no increasing order, so the path of the role ends with PICK_ORDER at weft index 1. -/
theorem test_pick_order :
    (ThWalk.run [some (.waitpick w0 (.imm 9)), some (.waitpick w0 (.imm 9))] (fun _ => none) [] 1000 1080 10 ThWalk.init).2.map
      (fun f => (f.check, f.index, f.needed)) = some (4, 1, 9) := by decide +kernel

end Sys2Proof.Tests
end

section
/-! SUPPORT. The commands of WV_CTRL (02_the_weave.md R63 to R69, 14_resilience_and_failover.md R382, R383): what an event, a
lock violation, a change of state, the beginning of a load and hedge entry change, and the statement about the commands. -/

namespace Sys2Proof.Machine

open Sys2Proof.Safety

/-! ### Bits and fields of registers -/

theorem State.reg_setFld_ne (s : State) (a b lo w v : Nat) (h : b ≠ a) : (s.setFld a lo w v).reg b = s.reg b := by
  simp [State.setFld, h]

theorem State.reg_putBit_ne (s : State) (a b i : Nat) (v : Bool) (h : b ≠ a) : (s.putBit a i v).reg b = s.reg b :=
  State.reg_setFld_ne s a b i 1 _ h

theorem State.bit_eq_fld (s : State) (a i : Nat) : s.bit a i = decide (s.fld a i 1 = 1) := by
  simp [State.bit, State.fld, field, Nat.testBit_eq_decide_div_mod_eq]

/-- The bit that was written reads as the value written. -/
theorem State.bit_putBit_self (s : State) (a i : Nat) (v : Bool) (h : i < 32) : (s.putBit a i v).bit a i = v := by
  rw [State.bit_eq_fld, State.putBit, State.fld_setFld _ _ _ _ _ (by omega)]
  cases v <;> rfl

/-- A bit outside the field written is unchanged. -/
theorem State.bit_setFld_disjoint (s : State) (a lo w v j : Nat) (h : lo + w ≤ 32) (d : j < lo ∨ lo + w ≤ j) :
    (s.setFld a lo w v).bit a j = s.bit a j := by
  rw [State.bit_eq_fld, State.bit_eq_fld, State.fld_setFld_disjoint _ _ _ _ _ _ _ h (by omega)]

theorem State.bit_putBit_ne (s : State) (a i j : Nat) (v : Bool) (h : i < 32) (d : j ≠ i) :
    (s.putBit a i v).bit a j = s.bit a j :=
  State.bit_setFld_disjoint s a i 1 _ j (by omega) (by omega)

/-! ### The error log -/

theorem logReg_logWord (i w : Nat) (hi : i < 256) (hw : w < 8) : LogReg (logWord i w) := by
  simp only [LogReg, logWord, Reg.RAS_LOG]
  omega

theorem logWord_add_four (i w : Nat) : logWord i w + 4 = logWord i (w + 1) := by
  simp only [logWord, Reg.RAS_LOG]
  omega

theorem State.mergeEntry_lt (s : State) (code source addr i : Nat) (h : s.mergeEntry code source addr = some i) : i < 256 :=
  List.mem_range.1 (List.mem_of_find?_eq_some h)

/-- The interrupt cause of an event by its class (R387). -/
def State.eventCause (s : State) (cls : Nat) : State :=
  if cls = 1 then s.sticky Reg.RAS_IRQ_STATUS 0 else if cls = 2 then s.sticky Reg.RAS_IRQ_STATUS 1
  else if cls = 3 then s.sticky Reg.RAS_IRQ_STATUS 2 else s

/-- The words of a new entry i of the log, and the log's pointers behind it (R387). -/
def State.writeLogEntry (s : State) (i time seq kind detail addr : Nat) : State :=
  (((((((s.setReg64 (logWord i 0) time).setRegN (logWord i 2) seq).setRegN (logWord i 3) kind).setRegN (logWord i 4)
    detail).setRegN (logWord i 5) 1).setReg64 (logWord i 6) addr).setRegN Reg.RAS_LOG_SEQ seq).setRegN Reg.RAS_LOG_NEXT ((i + 1) % 256)

/-- An event counts in an entry of the log or takes a new one. -/
theorem State.logEvent_cases (s : State) (code cls source detail addr : Nat) :
    (∃ i < 256, s.logEvent code cls source detail addr = (s.eventCause cls).satAdd (logWord i 5) 1) ∨
    ∃ i < 256, ∃ seq hist n kind b, s.logEvent code cls source detail addr =
      (({ s.eventCause cls with events := seq, hist := hist, histCount := n } : State).writeLogEntry i s.time seq kind detail
        addr).putBit Reg.RAS_STATUS 0 b := by
  cases hm : (if cls = 1 then s.mergeEntry code source addr else none) with
  | some i =>
    have hi : i < 256 := State.mergeEntry_lt s code source addr i (by split_ifs at hm; exact hm)
    refine .inl ⟨i, hi, ?_⟩
    unfold State.logEvent
    rw [hm]
    rfl
  | none =>
    refine .inr ⟨s.fld Reg.RAS_LOG_NEXT 0 8, field_lt _ 0 8, ?_⟩
    unfold State.logEvent
    rw [hm]
    exact ⟨_, _, _, _, _, rfl⟩

@[simp] theorem State.eventCause_weave (s : State) (cls : Nat) : (s.eventCause cls).weave = s.weave := by
  unfold State.eventCause; split_ifs <;> simp

@[simp] theorem State.eventCause_mem (s : State) (cls : Nat) : (s.eventCause cls).mem = s.mem := by
  unfold State.eventCause; split_ifs <;> simp

@[simp] theorem State.eventCause_cores (s : State) (cls : Nat) : (s.eventCause cls).cores = s.cores := by
  unfold State.eventCause; split_ifs <;> simp

theorem State.reg_eventCause (s : State) (cls a : Nat) (h : a ≠ Reg.RAS_IRQ_STATUS) : (s.eventCause cls).reg a = s.reg a := by
  unfold State.eventCause
  split_ifs <;> simp [State.sticky, State.reg_putBit_ne, h]

@[simp] theorem State.logEvent_weave (s : State) (code cls source detail addr : Nat) :
    (s.logEvent code cls source detail addr).weave = s.weave := by
  obtain ⟨i, -, h⟩ | ⟨i, -, seq, hist, n, kind, b, h⟩ := s.logEvent_cases code cls source detail addr <;>
    simp [h, State.writeLogEntry]

@[simp] theorem State.logEvent_mem (s : State) (code cls source detail addr : Nat) :
    (s.logEvent code cls source detail addr).mem = s.mem := by
  obtain ⟨i, -, h⟩ | ⟨i, -, seq, hist, n, kind, b, h⟩ := s.logEvent_cases code cls source detail addr <;>
    simp [h, State.writeLogEntry]

@[simp] theorem State.logEvent_cores (s : State) (code cls source detail addr : Nat) :
    (s.logEvent code cls source detail addr).cores = s.cores := by
  obtain ⟨i, -, h⟩ | ⟨i, -, seq, hist, n, kind, b, h⟩ := s.logEvent_cases code cls source detail addr <;>
    simp [h, State.writeLogEntry]

/-- A new entry changes the log's words and pointers alone. -/
theorem State.reg_writeLogEntry (s : State) (i time seq kind detail addr a : Nat) (hi : i < 256) (h : ¬ LogReg a) :
    (s.writeLogEntry i time seq kind detail addr).reg a = s.reg a := by
  have hword : ∀ w < 8, a ≠ logWord i w := fun w hw e => h (e ▸ logReg_logWord i w hi hw)
  have hseq : a ≠ Reg.RAS_LOG_SEQ := fun e => h (by simp [LogReg, e])
  have hnext : a ≠ Reg.RAS_LOG_NEXT := fun e => h (by simp [LogReg, e])
  simp only [State.writeLogEntry, State.setReg64, State.reg_setRegN, logWord_add_four, Nat.reduceAdd, if_neg hseq, if_neg hnext,
    if_neg (hword 0 (by omega)), if_neg (hword 1 (by omega)), if_neg (hword 2 (by omega)), if_neg (hword 3 (by omega)),
    if_neg (hword 4 (by omega)), if_neg (hword 5 (by omega)), if_neg (hword 6 (by omega)), if_neg (hword 7 (by omega))]

/-- An event changes the registers of the log alone (R387). -/
theorem State.reg_logEvent (s : State) (code cls source detail addr a : Nat) (h : ¬ LogReg a) :
    (s.logEvent code cls source detail addr).reg a = s.reg a := by
  have hirq : a ≠ Reg.RAS_IRQ_STATUS := fun e => h (by simp [LogReg, e])
  have hst : a ≠ Reg.RAS_STATUS := fun e => h (by simp [LogReg, e])
  obtain ⟨i, hi, e⟩ | ⟨i, hi, seq, hist, n, kind, b, e⟩ := s.logEvent_cases code cls source detail addr
  · have hw : a ≠ logWord i 5 := fun e => h (e ▸ logReg_logWord i 5 hi (by omega))
    rw [e, State.satAdd, State.reg_setRegN, if_neg hw, State.reg_eventCause s cls a hirq]
  · rw [e, State.reg_putBit_ne _ _ _ _ _ hst, State.reg_writeLogEntry _ _ _ _ _ _ _ _ hi h]
    exact State.reg_eventCause s cls a hirq

/-! ### Writes to locked fields (R14) -/

@[simp] theorem State.lockViolation_weave (s : State) (addr master : Nat) : (s.lockViolation addr master).weave = s.weave := by
  unfold State.lockViolation
  split_ifs <;> simp

@[simp] theorem State.lockViolation_mem (s : State) (addr master : Nat) : (s.lockViolation addr master).mem = s.mem := by
  unfold State.lockViolation
  split_ifs <;> simp

@[simp] theorem State.lockViolation_cores (s : State) (addr master : Nat) : (s.lockViolation addr master).cores = s.cores := by
  unfold State.lockViolation
  split_ifs <;> simp

/-- Registers outside the log read after a lock violation as they do with the count and, where none is held, the capture. -/
theorem State.reg_lockViolation (s : State) (addr master a : Nat) (h : ¬ LogReg a) :
    (s.lockViolation addr master).reg a =
      if a = Reg.RAS_LOCKCAP_HI ∧ s.bit Reg.RAS_LOCKCAP_HI 31 = false then
        BitVec.ofNat 32 (addr / 2 ^ 32 % 256 + master * 256 + 0x80000000)
      else if a = Reg.RAS_LOCKCAP_LO ∧ s.bit Reg.RAS_LOCKCAP_HI 31 = false then BitVec.ofNat 32 (addr % 2 ^ 32)
      else (s.satAdd Reg.RAS_LOCKVIOL 1).reg a := by
  have hirq : a ≠ Reg.RAS_IRQ_STATUS := fun e => h (by simp [LogReg, e])
  unfold State.lockViolation
  rw [State.reg_logEvent _ _ _ _ _ _ _ h]
  cases s.bit Reg.RAS_LOCKCAP_HI 31 <;> simp [State.sticky, State.reg_putBit_ne _ _ _ _ _ hirq]

/-- The lock violation count, saturating (R14, R17). -/
theorem State.regN_lockViolation_count (s : State) (addr master : Nat) :
    (s.lockViolation addr master).regN Reg.RAS_LOCKVIOL = min (s.regN Reg.RAS_LOCKVIOL + 1) 0xFFFFFFFF := by
  have h : ¬ LogReg Reg.RAS_LOCKVIOL := by unfold LogReg; decide
  rw [← State.regN_satAdd, State.regN, State.reg_lockViolation _ _ _ _ h]
  simp [State.regN]

/-- Address and master of the violation are captured if no capture is held (R14). -/
theorem State.reg64_lockViolation_capture (s : State) (addr master : Nat) (hc : s.bit Reg.RAS_LOCKCAP_HI 31 = false)
    (ha : addr < 2 ^ 40) (hm : master < 256) :
    (s.lockViolation addr master).reg64 Reg.RAS_LOCKCAP_LO % 2 ^ 48 = addr + master * 2 ^ 40 := by
  have hlo : ¬ LogReg Reg.RAS_LOCKCAP_LO := by unfold LogReg; decide
  have hhi : ¬ LogReg Reg.RAS_LOCKCAP_HI := by unfold LogReg; decide
  have elo : (s.lockViolation addr master).regN Reg.RAS_LOCKCAP_LO = addr % 2 ^ 32 := by
    rw [State.regN, State.reg_lockViolation _ _ _ _ hlo, if_neg (fun e => by simp at e), if_pos ⟨rfl, hc⟩, BitVec.toNat_ofNat]
    omega
  have ehi : (s.lockViolation addr master).regN Reg.RAS_LOCKCAP_HI = addr / 2 ^ 32 % 256 + master * 256 + 0x80000000 := by
    rw [State.regN, State.reg_lockViolation _ _ _ _ hhi, if_pos ⟨rfl, hc⟩, BitVec.toNat_ofNat]
    omega
  have e : (s.lockViolation addr master).reg64 Reg.RAS_LOCKCAP_LO =
    addr % 2 ^ 32 + (addr / 2 ^ 32 % 256 + master * 256 + 0x80000000) * 2 ^ 32 := by rw [← elo, ← ehi]; rfl
  rw [e]
  omega

/-- No other register outside the log changes. -/
theorem State.reg_lockViolation_ne (s : State) (addr master a : Nat) (h : ¬ LogReg a) (hv : a ≠ Reg.RAS_LOCKVIOL)
    (hlo : a ≠ Reg.RAS_LOCKCAP_LO) (hhi : a ≠ Reg.RAS_LOCKCAP_HI) : (s.lockViolation addr master).reg a = s.reg a := by
  rw [State.reg_lockViolation _ _ _ _ h, if_neg (fun e => hhi e.1), if_neg (fun e => hlo e.1), State.satAdd, State.reg_setRegN,
    if_neg hv]

/-! ### The registers through which the weave is commanded -/

/-- WV_CTRL, WV_STATUS, WV_IMG, WV_START and WV_IRQ_STATUS. -/
abbrev CmdReg (a : Nat) : Prop := (Reg.WV_CTRL ≤ a ∧ a < Reg.WV_TICK_BASE) ∨ a = Reg.WV_IRQ_STATUS

/-- The command registers of the weave read in t as in s. -/
def SameCmd (s t : State) : Prop := ∀ a, CmdReg a → t.reg a = s.reg a

theorem SameCmd.refl (s : State) : SameCmd s s := fun _ _ => rfl

theorem sameCmd_of_regs_eq {s t : State} (h : t.regs = s.regs) : SameCmd s t := fun a _ => by unfold State.reg; rw [h]

theorem SameCmd.trans {s t u : State} (h : SameCmd s t) (k : SameCmd t u) : SameCmd s u :=
  fun a ha => (k a ha).trans (h a ha)

theorem SameCmd.regN {s t : State} (h : SameCmd s t) {a : Nat} (ha : CmdReg a) : t.regN a = s.regN a :=
  congrArg BitVec.toNat (h a ha)

theorem SameCmd.fld {s t : State} (h : SameCmd s t) {a : Nat} (lo w : Nat) (ha : CmdReg a) : t.fld a lo w = s.fld a lo w := by
  unfold State.fld; rw [h.regN ha]

theorem SameCmd.bit {s t : State} (h : SameCmd s t) {a : Nat} (i : Nat) (ha : CmdReg a) : t.bit a i = s.bit a i := by
  unfold State.bit; rw [h.regN ha]

theorem SameCmd.weaveState {s t : State} (h : SameCmd s t) : t.weaveState = s.weaveState := h.fld 0 3 (by decide)

theorem SameCmd.reg64 {s t : State} (h : SameCmd s t) {a : Nat} (ha : CmdReg a) (hb : CmdReg (a + 4)) :
    t.reg64 a = s.reg64 a := by
  unfold State.reg64; rw [h.regN ha, h.regN hb]

theorem sameCmd_setRegN (s : State) (a v : Nat) (h : ¬ CmdReg a) : SameCmd s (s.setRegN a v) := fun b hb => by
  rw [State.reg_setRegN, if_neg fun e : b = a => h (e ▸ hb)]

theorem sameCmd_setFld (s : State) (a lo w v : Nat) (h : ¬ CmdReg a) : SameCmd s (s.setFld a lo w v) := sameCmd_setRegN s a _ h

theorem sameCmd_putBit (s : State) (a i : Nat) (b : Bool) (h : ¬ CmdReg a) : SameCmd s (s.putBit a i b) := sameCmd_setRegN s a _ h

theorem sameCmd_setReg64 (s : State) (a v : Nat) (h : ¬ CmdReg a) (h' : ¬ CmdReg (a + 4)) : SameCmd s (s.setReg64 a v) :=
  (sameCmd_setRegN s a _ h).trans (sameCmd_setRegN _ (a + 4) _ h')

theorem sameCmd_logEvent (s : State) (code cls source detail addr : Nat) : SameCmd s (s.logEvent code cls source detail addr) :=
  fun a ha => State.reg_logEvent s code cls source detail addr a (by
    simp only [CmdReg, Reg.WV_CTRL, Reg.WV_TICK_BASE, Reg.WV_IRQ_STATUS, Reg.blk] at ha
    simp only [LogReg, Reg.RAS_LOG, Reg.RAS_LOG_SEQ, Reg.RAS_LOG_NEXT, Reg.RAS_STATUS, Reg.RAS_IRQ_STATUS, Reg.blk]
    omega)

/-- What every step of a loop keeps, the loop keeps. -/
theorem foldl_preserves {α β γ : Type*} (p : α → γ) (f : α → β → α) (l : List β) (h : ∀ t, ∀ x ∈ l, p (f t x) = p t) (s : α) :
    p (l.foldl f s) = p s := by
  induction l generalizing s with
  | nil => rfl
  | cons x r ih =>
    rw [List.foldl_cons, ih (fun t y hy => h t y (List.mem_cons_of_mem x hy)), h s x List.mem_cons_self]

theorem sameCmd_foldl {β : Type} (f : State → β → State) (l : List β) (h : ∀ t, ∀ x ∈ l, SameCmd t (f t x)) (s : State) :
    SameCmd s (l.foldl f s) :=
  fun a ha => foldl_preserves (fun t => t.reg a) f l (fun t x hx => h t x hx a ha) s

/-! ### Operations of the weave controller -/

@[simp] theorem State.setTime_weave (s : State) (t : Nat) : (s.setTime t).weave = s.weave := by simp [State.setTime]
@[simp] theorem State.setTime_mem (s : State) (t : Nat) : (s.setTime t).mem = s.mem := by simp [State.setTime]
@[simp] theorem State.setTime_cores (s : State) (t : Nat) : (s.setTime t).cores = s.cores := by simp [State.setTime]

theorem sameCmd_setTime (s : State) (t : Nat) : SameCmd s (s.setTime t) :=
  ((sameCmd_setReg64 s _ _ (by decide) (by decide)).trans (sameCmd_setReg64 _ _ _ (by decide) (by decide))).trans
    (sameCmd_setRegN _ _ _ (by decide))

@[simp] theorem State.applyRest_weave (s : State) : s.applyRest.weave = s.weave := by simp [State.applyRest]
@[simp] theorem State.applyRest_mem (s : State) : s.applyRest.mem = s.mem := by simp [State.applyRest]
@[simp] theorem State.applyRest_cores (s : State) : s.applyRest.cores = s.cores := by simp [State.applyRest]

theorem sameCmd_applyRest (s : State) : SameCmd s s.applyRest :=
  SameCmd.trans (t := ({ s with stepRest := 0 } : State)) (SameCmd.refl s)
    ((sameCmd_setTime _ _).trans (sameCmd_putBit _ _ _ _ (by decide)))

/-- A change of state writes WV_STATUS.state, may apply the rest of a timebase step (R312), and is logged if it is one. -/
theorem State.setWeave_cases (s : State) (st : Nat) :
    ∃ t, (t = s.setFld Reg.WV_STATUS 0 3 st ∨ t = (s.setFld Reg.WV_STATUS 0 3 st).applyRest) ∧
      (s.setWeave st = t ∨ s.setWeave st = t.logEvent 0x601 0 0x51 st 0) :=
  ⟨_, (ite_eq_or_eq _ _ _).symm, ite_eq_or_eq (s.weaveState = st) _ _⟩

theorem sameCmd_setWeave (s : State) (st : Nat) : SameCmd (s.setFld Reg.WV_STATUS 0 3 st) (s.setWeave st) := by
  obtain ⟨t, ht, h⟩ := s.setWeave_cases st
  have k : SameCmd (s.setFld Reg.WV_STATUS 0 3 st) t := by
    obtain rfl | rfl := ht
    · exact SameCmd.refl _
    · exact sameCmd_applyRest _
  obtain h | h := h <;> rw [h]
  · exact k
  · exact k.trans (sameCmd_logEvent _ _ _ _ _ _)

theorem State.weaveState_setWeave (s : State) (st : Nat) (h : st < 8) : (s.setWeave st).weaveState = st := by
  rw [(sameCmd_setWeave s st).weaveState, State.weaveState, State.fld_setFld _ _ _ _ _ (by omega)]
  exact Nat.mod_eq_of_lt h

@[simp] theorem State.setWeave_weave (s : State) (st : Nat) : (s.setWeave st).weave = s.weave := by
  obtain ⟨t, rfl | rfl, h | h⟩ := s.setWeave_cases st <;> simp [h]

@[simp] theorem State.setWeave_mem (s : State) (st : Nat) : (s.setWeave st).mem = s.mem := by
  obtain ⟨t, rfl | rfl, h | h⟩ := s.setWeave_cases st <;> simp [h]

@[simp] theorem State.setWeave_cores (s : State) (st : Nat) : (s.setWeave st).cores = s.cores := by
  obtain ⟨t, rfl | rfl, h | h⟩ := s.setWeave_cases st <;> simp [h]

/-- A bit of WV_STATUS above the state leaves the state. -/
theorem State.weaveState_putBit (s : State) (i : Nat) (b : Bool) (h : i < 32) (h3 : 3 ≤ i) :
    (s.putBit Reg.WV_STATUS i b).weaveState = s.weaveState :=
  State.fld_setFld_disjoint s _ _ _ _ _ _ (by omega) (.inl (by omega))

@[simp] theorem State.requestWakes_weave (s : State) (us : List Nat) : (s.requestWakes us).weave = s.weave := by
  simp [State.requestWakes]

@[simp] theorem State.requestWakes_mem (s : State) (us : List Nat) : (s.requestWakes us).mem = s.mem := by
  simp [State.requestWakes]

@[simp] theorem State.requestWakes_cores (s : State) (us : List Nat) : (s.requestWakes us).cores = s.cores := by
  simp [State.requestWakes]

theorem sameCmd_requestWakes (s : State) (us : List Nat) : SameCmd s (s.requestWakes us) :=
  fun a ha => sameCmd_setFld _ _ _ _ _ (by decide) a ha

@[simp] theorem State.gateUnused_weave (s : State) : s.gateUnused.weave = s.weave := by simp [State.gateUnused]
@[simp] theorem State.gateUnused_mem (s : State) : s.gateUnused.mem = s.mem := by simp [State.gateUnused]
@[simp] theorem State.gateUnused_cores (s : State) : s.gateUnused.cores = s.cores := by simp [State.gateUnused]

theorem sameCmd_gateUnused (s : State) : SameCmd s s.gateUnused :=
  fun a ha => sameCmd_setFld _ _ _ _ _ (by decide) a ha

/-! ### The beginning of a load (R66) -/

theorem State.clusters_le (s : State) : s.clusters ≤ 8 := by
  unfold State.clusters
  split_ifs <;> decide

/-- No threader report is valid (R239). -/
def State.clearReports (s : State) : State :=
  (List.range s.clusters).foldl (fun t g => t.putBit (Reg.CLU_THRREP g 7) 0 false) s

@[simp] theorem State.clearReports_weave (s : State) : s.clearReports.weave = s.weave :=
  foldl_preserves State.weave _ _ (by simp) s

@[simp] theorem State.clearReports_mem (s : State) : s.clearReports.mem = s.mem := foldl_preserves State.mem _ _ (by simp) s
@[simp] theorem State.clearReports_cores (s : State) : s.clearReports.cores = s.cores :=
  foldl_preserves State.cores _ _ (by simp) s

theorem sameCmd_clearReports (s : State) : SameCmd s s.clearReports := by
  refine sameCmd_foldl _ _ (fun t g hg => sameCmd_putBit _ _ _ _ ?_) s
  have hg := List.mem_range.1 hg
  have hc := s.clusters_le
  simp only [CmdReg, Reg.CLU_THRREP, Reg.cluReg, Reg.WV_CTRL, Reg.WV_TICK_BASE, Reg.WV_IRQ_STATUS, Reg.blk]
  omega

/-- The state in which a load examines its image: no report valid, WV_IMG sampled. -/
def State.sampleImg (s : State) (standby : Bool) : State :=
  { s.clearReports with
    weave := { s.clearReports.weave with loadAddr := s.reg64 Reg.WV_IMG_LO % 2 ^ 40, loadStandby := standby } }

/-- A load samples WV_IMG and, for an image that passes its checks, requests wakes. The definition is unfolded unapplied and
the content of WV_IMG gets a name, so that the kernel compares the two sides without evaluating the checks on reg64, whose
product with 2^32 it would count down. -/
theorem State.beginLoad_cases (s : State) (standby : Bool) :
    s.beginLoad standby = s.sampleImg standby ∨ ∃ us, s.beginLoad standby = (s.sampleImg standby).requestWakes us := by
  generalize h : s.beginLoad standby = u
  conv at h =>
    lhs
    fun
    fun
    delta State.beginLoad
  unfold State.sampleImg
  obtain ⟨a, ha⟩ : ∃ a, s.reg64 Reg.WV_IMG_LO = a := ⟨_, rfl⟩
  rw [ha] at h ⊢
  dsimp only at h
  split at h
  · exact .inr ⟨_, h.symm⟩
  · exact .inl h.symm

@[simp] theorem State.beginLoad_weave (s : State) (standby : Bool) : (s.beginLoad standby).weave =
    { s.weave with loadAddr := s.reg64 Reg.WV_IMG_LO % 2 ^ 40, loadStandby := standby } := by
  obtain h | ⟨us, h⟩ := s.beginLoad_cases standby <;> simp [h, State.sampleImg]

@[simp] theorem State.beginLoad_mem (s : State) (standby : Bool) : (s.beginLoad standby).mem = s.mem := by
  obtain h | ⟨us, h⟩ := s.beginLoad_cases standby <;> simp [h, State.sampleImg]

@[simp] theorem State.beginLoad_cores (s : State) (standby : Bool) : (s.beginLoad standby).cores = s.cores := by
  obtain h | ⟨us, h⟩ := s.beginLoad_cases standby <;> simp [h, State.sampleImg]

theorem sameCmd_beginLoad (s : State) (standby : Bool) : SameCmd s (s.beginLoad standby) := by
  have k : SameCmd s (s.sampleImg standby) := sameCmd_clearReports s
  obtain h | ⟨us, h⟩ := s.beginLoad_cases standby <;> rw [h]
  · exact k
  · exact k.trans (sameCmd_requestWakes _ us)

theorem sameMem_of_mem_eq {s t : State} (h : t.mem = s.mem) : SameMem s t := fun a => by unfold State.byte; rw [h]

/-! ### The commands of WV_CTRL (R63 to R68) -/

/-- What a write to the locked field WV_CTRL.cmd leaves (R14, R65). -/
def LockBarred (s : State) (m : BitVec 8) (t : State) : Prop :=
  SameMem s t ∧ t.cores = s.cores ∧ t.weave = s.weave ∧
    t.regN Reg.RAS_LOCKVIOL = min (s.regN Reg.RAS_LOCKVIOL + 1) 0xFFFFFFFF ∧
    (s.bit Reg.RAS_LOCKCAP_HI 31 = false → t.reg64 Reg.RAS_LOCKCAP_LO % 2 ^ 48 = Reg.WV_CTRL + m.toNat * 2 ^ 40) ∧
    ∀ a, ¬ LogReg a → a ≠ Reg.RAS_LOCKVIOL → a ≠ Reg.RAS_LOCKCAP_LO → a ≠ Reg.RAS_LOCKCAP_HI → t.reg a = s.reg a

theorem lockBarred_lockViolation (s : State) (m : BitVec 8) : LockBarred s m (s.lockViolation Reg.WV_CTRL m.toNat) :=
  ⟨sameMem_of_mem_eq (by simp), by simp, by simp, s.regN_lockViolation_count _ _,
    fun hc => s.reg64_lockViolation_capture _ _ hc (by decide) m.isLt, fun _ => s.reg_lockViolation_ne _ _ _⟩

/-- With the lock bit set, a command under the lock is a lock violation (R65). -/
theorem gives_lockBarred (s : State) (m : BitVec 8) (t : State) (h : s.bit Reg.WV_CTRL 8 = true) :
    Gives (.next (s.unlessLocked m.toNat t)) (LockBarred s m) :=
  ⟨_, rfl, by rw [State.unlessLocked, if_pos h]; exact lockBarred_lockViolation s m⟩

/-- With the lock bit clear, it takes effect. -/
theorem State.unlessLocked_of_unlocked (s : State) (master : Nat) (t : State) (h : s.bit Reg.WV_CTRL 8 = false) :
    s.unlessLocked master t = t := by simp [State.unlessLocked, h]

theorem gives_unlocked (s : State) (m : BitVec 8) (t : State) (P : State → Prop) (h : s.bit Reg.WV_CTRL 8 = false) (ht : P t) :
    Gives (.next (s.unlessLocked m.toNat t)) P := ⟨t, by rw [s.unlessLocked_of_unlocked _ _ h], ht⟩

theorem next_unlocked (s : State) (m : BitVec 8) (t u : State) (h : s.bit Reg.WV_CTRL 8 = false) (ht : t = u) :
    (.next (s.unlessLocked m.toNat t) : Host.Outcome State Fault Refusal) = .next u := by
  rw [s.unlessLocked_of_unlocked _ _ h, ht]

/-! LOAD -/

theorem State.cmdLoad_first (s : State) (h : s.weaveState = 0 ∨ s.weaveState = 2 ∨ s.weaveState = 5 ∨ s.weaveState = 7) :
    s.cmdLoad = (({ s with weave := { s.weave with active := none } } : State).setWeave 1).beginLoad false := if_pos h

theorem State.cmdLoad_standby (s : State) (hw : s.weaveState = 4) (h7 : s.bit Reg.WV_STATUS 7 = false)
    (h4 : s.bit Reg.WV_STATUS 4 = false) : s.cmdLoad =
      ((({ s with weave := { s.weave with standby := none } } : State).putBit Reg.WV_STATUS 3 false).sticky Reg.WV_STATUS 7).beginLoad
        true := by
  unfold State.cmdLoad
  rw [if_neg (by omega), if_pos ⟨hw, h7, h4⟩]

theorem State.cmdLoad_rejected (s : State) (h : s.weaveState = 1 ∨ s.weaveState = 3 ∨ s.weaveState = 6 ∨
    (s.weaveState = 4 ∧ (s.bit Reg.WV_STATUS 7 = true ∨ s.bit Reg.WV_STATUS 4 = true))) : s.cmdLoad = s.cmdRejected := by
  unfold State.cmdLoad
  rw [if_neg (by omega), if_neg]
  rintro ⟨hw, h7, h4⟩
  obtain h | h | h | ⟨-, h | h⟩ := h <;> simp_all

theorem cmdLoad_first_spec (s : State)
    (h : s.weaveState = 0 ∨ s.weaveState = 2 ∨ s.weaveState = 5 ∨ s.weaveState = 7) :
    s.cmdLoad.weaveState = 1 ∧ s.cmdLoad.weave.active = none ∧
      s.cmdLoad.weave.loadAddr = s.reg64 Reg.WV_IMG_LO % 2 ^ 40 ∧ SameMem s s.cmdLoad ∧ s.cmdLoad.cores = s.cores := by
  have k : SameCmd (s.setFld Reg.WV_STATUS 0 3 1) (({ s with weave := { s.weave with active := none } } : State).setWeave 1) :=
    sameCmd_setWeave _ 1
  have himg : (({ s with weave := { s.weave with active := none } } : State).setWeave 1).reg64 Reg.WV_IMG_LO =
      s.reg64 Reg.WV_IMG_LO := by
    rw [k.reg64 (by decide) (by decide)]
    simp [State.reg64, State.regN_setFld_ne]
  rw [s.cmdLoad_first h]
  refine ⟨?_, by simp, by simp [himg], sameMem_of_mem_eq (by simp), by simp⟩
  rw [(sameCmd_beginLoad _ _).weaveState, State.weaveState_setWeave _ 1 (by omega)]

theorem cmdLoad_standby_spec (s : State) (hw : s.weaveState = 4) (h7 : s.bit Reg.WV_STATUS 7 = false)
    (h4 : s.bit Reg.WV_STATUS 4 = false) :
    s.cmdLoad.weaveState = 4 ∧ s.cmdLoad.bit Reg.WV_STATUS 7 = true ∧ s.cmdLoad.bit Reg.WV_STATUS 3 = false ∧
      s.cmdLoad.weave.standby = none ∧ s.cmdLoad.weave.active = s.weave.active ∧
      s.cmdLoad.weave.loadAddr = s.reg64 Reg.WV_IMG_LO % 2 ^ 40 ∧ SameMem s s.cmdLoad ∧ s.cmdLoad.cores = s.cores := by
  rw [s.cmdLoad_standby hw h7 h4]
  set t := (({ s with weave := { s.weave with standby := none } } : State).putBit Reg.WV_STATUS 3 false).sticky Reg.WV_STATUS 7
    with ht
  have k := sameCmd_beginLoad t true
  have hstate : t.weaveState = s.weaveState := by
    rw [ht, State.sticky, State.weaveState_putBit _ _ _ (by omega) (by omega), State.weaveState_putBit _ _ _ (by omega) (by omega)]
    rfl
  have himg : t.reg64 Reg.WV_IMG_LO = s.reg64 Reg.WV_IMG_LO := by
    simp only [ht, State.reg64, State.sticky, State.putBit, State.regN_setFld_ne _ _ _ _ _ _ (show Reg.WV_IMG_LO ≠ Reg.WV_STATUS by decide),
      State.regN_setFld_ne _ _ _ _ _ _ (show Reg.WV_IMG_LO + 4 ≠ Reg.WV_STATUS by decide)]
    rfl
  refine ⟨?_, ?_, ?_, by simp [ht], by simp [ht], by simp [himg], sameMem_of_mem_eq (by simp [ht]), by simp [ht]⟩
  · rw [k.weaveState, hstate, hw]
  · rw [k.bit 7 (by decide), ht, State.sticky, State.bit_putBit_self _ _ _ _ (by omega)]
  · rw [k.bit 3 (by decide), ht, State.sticky, State.bit_putBit_ne _ _ _ _ _ (by omega) (by omega),
      State.bit_putBit_self _ _ _ _ (by omega)]

/-! START -/

/-- The condition of START: LOADED or STOPPED, for the next pick or one at least 16,000 ns ahead (R67). -/
def State.CanStart (s : State) : Prop :=
  (s.weaveState = 2 ∨ s.weaveState = 5) ∧ (s.reg64 Reg.WV_START_LO = 0 ∨ s.time + 16000 ≤ 1000 * s.reg64 Reg.WV_START_LO)

/-- The pick at which START lets the weave begin (R67). -/
def State.startPickOf (s : State) : Nat :=
  if s.reg64 Reg.WV_START_LO = 0 then (s.time + 16999) / 1000 else s.reg64 Reg.WV_START_LO

/-- The armed weave. -/
def State.armed (s : State) : State :=
  ({ s with weave := { s.weave with startPick := s.startPickOf } } : State).clearSums.setWeave 3

@[simp] theorem State.armed_weave (s : State) : s.armed.weave = { s.weave with startPick := s.startPickOf } := by
  simp [State.armed, State.clearSums]

@[simp] theorem State.armed_mem (s : State) : s.armed.mem = s.mem := by simp [State.armed, State.clearSums]
@[simp] theorem State.armed_cores (s : State) : s.armed.cores = s.cores := by simp [State.armed, State.clearSums]

theorem State.weaveState_armed (s : State) : s.armed.weaveState = 3 := State.weaveState_setWeave _ 3 (by omega)

/-- START arms the weave and may select the variant of its first tick. -/
theorem State.cmdStart_ready (s : State) (h : s.CanStart) :
    s.cmdStart = s.armed ∨ ∃ id, s.cmdStart = s.armed.setFld Reg.WV_VARIANT 16 16 id := by
  have e : s.cmdStart = _ := if_pos h
  dsimp only at e
  split at e
  · exact .inr ⟨_, e⟩
  · exact .inl e

theorem State.cmdStart_rejected (s : State) (h : ¬ s.CanStart) : s.cmdStart = s.cmdRejected := if_neg h

theorem gives_weaveStart (s : State) (h : s.CanStart) : Gives (exec .weaveStart s) fun t =>
    t.weaveState = 3 ∧ t.weave.startPick = s.startPickOf ∧ SameMem s t ∧ t.cores = s.cores := by
  refine ⟨s.cmdStart, rfl, ?_⟩
  obtain e | ⟨id, e⟩ := s.cmdStart_ready h
  · rw [e]
    exact ⟨s.weaveState_armed, by simp, sameMem_of_mem_eq (by simp), by simp⟩
  · rw [e, (sameCmd_setFld s.armed _ _ _ _ (by decide)).weaveState]
    exact ⟨s.weaveState_armed, by simp, sameMem_of_mem_eq (by simp), by simp⟩

/-! STOP, REPLACE and ABANDON -/

theorem State.cmdStop_armed (s : State) (h : s.weaveState = 3) :
    s.cmdStop = (s.setWeave 2).setFld Reg.WV_VARIANT 16 16 s.variantId := if_pos h

theorem cmdStop_armed_spec (s : State) (h : s.weaveState = 3) :
    s.cmdStop.weaveState = 2 ∧ SameMem s s.cmdStop ∧ s.cmdStop.cores = s.cores ∧ s.cmdStop.weave = s.weave := by
  rw [s.cmdStop_armed h]
  refine ⟨?_, sameMem_of_mem_eq (by simp), by simp, by simp⟩
  rw [(sameCmd_setFld _ _ _ _ _ (by decide)).weaveState, State.weaveState_setWeave _ 2 (by omega)]

theorem State.cmdStop_running (s : State) (h : s.weaveState = 4) : s.cmdStop = s.setPending false true := by
  unfold State.cmdStop
  rw [if_neg (by omega), if_pos h]

theorem State.cmdStop_rejected (s : State) (h : s.weaveState ≠ 3 ∧ s.weaveState ≠ 4) : s.cmdStop = s.cmdRejected := by
  unfold State.cmdStop
  rw [if_neg h.1, if_neg h.2]

theorem State.cmdAbandon_running (s : State) (h : s.weaveState = 4) : s.cmdAbandon =
    (((({ s with weave := { s.weave with standby := none } } : State).putBit Reg.WV_STATUS 3 false).putBit Reg.WV_STATUS 7
      false).setPending false false).gateUnused := if_pos h

theorem cmdAbandon_running_spec (s : State) (h : s.weaveState = 4) :
    s.cmdAbandon.weaveState = 4 ∧ s.cmdAbandon.weave.standby = none ∧ s.cmdAbandon.bit Reg.WV_STATUS 3 = false ∧
      s.cmdAbandon.bit Reg.WV_STATUS 4 = false ∧ s.cmdAbandon.bit Reg.WV_STATUS 5 = false ∧ SameMem s s.cmdAbandon ∧
      s.cmdAbandon.cores = s.cores := by
  rw [s.cmdAbandon_running h]
  unfold State.setPending
  set u := ({ s with weave := { s.weave with standby := none } } : State) with hu
  set t := (((u.putBit Reg.WV_STATUS 3 false).putBit Reg.WV_STATUS 7 false).putBit Reg.WV_STATUS 4 false).putBit Reg.WV_STATUS 5 false
    with ht
  have k := sameCmd_gateUnused t
  refine ⟨?_, by simp [ht, hu], ?_, ?_, ?_, sameMem_of_mem_eq (by simp [ht, hu]), by simp [ht, hu]⟩
  · rw [k.weaveState, ht]
    iterate 4 rw [State.weaveState_putBit _ _ _ (by omega) (by omega)]
    exact h
  · rw [k.bit 3 (by decide), ht]
    iterate 3 rw [State.bit_putBit_ne _ _ _ _ _ (by omega) (by omega)]
    exact State.bit_putBit_self _ _ _ _ (by omega)
  · rw [k.bit 4 (by decide), ht, State.bit_putBit_ne _ _ _ _ _ (by omega) (by omega)]
    exact State.bit_putBit_self _ _ _ _ (by omega)
  · rw [k.bit 5 (by decide), ht]
    exact State.bit_putBit_self _ _ _ _ (by omega)

/-! ### Hedge entry (R382, R383) -/

/-- The command registers of the weave and the standby image are in t as in s. -/
def SameHedge (s t : State) : Prop := SameCmd s t ∧ t.weave.standby = s.weave.standby

theorem SameHedge.trans {s t u : State} (h : SameHedge s t) (k : SameHedge t u) : SameHedge s u :=
  ⟨h.1.trans k.1, k.2.trans h.2⟩

theorem sameHedge_foldl {β : Type} (f : State → β → State) (l : List β) (h : ∀ t, ∀ x ∈ l, SameHedge t (f t x)) (s : State) :
    SameHedge s (l.foldl f s) :=
  ⟨sameCmd_foldl f l (fun t x hx => (h t x hx).1) s, foldl_preserves (fun t => t.weave.standby) f l (fun t x hx => (h t x hx).2) s⟩

theorem sameHedge_takePending (s : State) (sel : Nat → Bool) (ringOf : Nat → Stamped → Option Nat) (reason : Nat) :
    SameHedge s (s.takePending sel ringOf reason).2 := by
  have k : ∀ l : List (Nat × List Stamped), ∀ t : State, SameHedge t (l.foldl (fun t e => t.endKept e.1 (e.2.map (fun f => f.frame))) t) :=
    fun l => sameHedge_foldl _ l fun t e _ => ⟨SameCmd.refl t, rfl⟩
  exact k _ (s.releaseFrames _)

theorem sameHedge_setWindow (s : State) (n : Nat) : SameHedge s (s.setWindow n) := by
  refine ⟨?_, by simp [State.setWindow]⟩
  have k : ∀ b, SameCmd s ((s.clearMem (windowBase + min (s.fld Reg.SYS_SC_WINDOW 0 5) n * 0x200000) (windowBase + 0x2000000)).setFld
      Reg.SYS_SC_WINDOW 0 5 n |>.putBit Reg.SYS_MEMSTAT 1 b) :=
    fun b => (sameCmd_setFld (s.clearMem _ _) _ _ _ _ (by decide)).trans (sameCmd_putBit _ _ _ _ (by decide))
  exact k _

theorem sameHedge_setVariant (s : State) (id : Nat) : SameHedge s (s.setVariant id) := by
  unfold State.setVariant
  dsimp only
  have k : SameCmd s (s.setRegN Reg.WV_VARIANT (id + id * 65536)) := sameCmd_setRegN _ _ _ (by decide)
  split_ifs
  · exact ⟨k, by simp⟩
  · exact ⟨k.trans (sameCmd_logEvent _ _ _ _ _ _), by simp⟩

theorem sameHedge_hedgeSelect (s : State) (im : Option Image) (cause : Nat) : SameHedge s (s.hedgeSelect im cause) := by
  unfold State.hedgeSelect
  split
  next g v _ =>
    refine SameHedge.trans (t := ({ s with weave := { s.weave with hedgeCluster := g } } : State)) ⟨SameCmd.refl s, rfl⟩ ?_
    exact (sameHedge_setVariant _ _).trans ⟨sameCmd_setRegN _ _ _ (by decide), by simp⟩
  next =>
    refine SameHedge.trans (t := ({ s with weave := { s.weave with hedgeAt := none, active := none } } : State))
      ⟨SameCmd.refl s, rfl⟩ ?_
    exact ⟨sameCmd_setRegN _ _ _ (by decide), by simp⟩

/-- The registers of the rings lie above those of the weave controller. -/
theorem not_cmdReg_ring (x k : Nat) : ¬ CmdReg (Reg.blk 0x41 + x + k) := by
  simp only [CmdReg, Reg.WV_CTRL, Reg.WV_TICK_BASE, Reg.WV_IRQ_STATUS, Reg.blk]
  omega

theorem sameHedge_ringIrq (s : State) (r : Nat) : SameHedge s (s.ringIrq r) := by
  unfold State.ringIrq
  split_ifs <;> exact ⟨sameCmd_putBit _ _ _ _ (by decide), by simp⟩

theorem sameHedge_refreshOwed (s : State) (r : Nat) : SameHedge s (s.refreshOwed r) := by
  have k : ∀ b v, SameHedge s ((s.putBit (Reg.RING_STAT r) 0 b).setRegN (Reg.RING_OWED r) v) := fun b v =>
    ⟨(sameCmd_putBit _ _ _ _ (not_cmdReg_ring _ _)).trans (sameCmd_setRegN _ _ _ (not_cmdReg_ring _ _)), by simp⟩
  unfold State.refreshOwed
  dsimp only
  split
  · exact (k _ _).trans (sameHedge_ringIrq _ _)
  · exact k _ _

theorem sameHedge_ringConfigure (s : State) (c : RingConf) : SameHedge s (s.ringConfigure c) := by
  have hset : ∀ (t : State) (x k v : Nat), SameHedge t (t.setRegN (Reg.blk 0x41 + x + k) v) := fun t x k v =>
    ⟨sameCmd_setRegN _ _ _ (not_cmdReg_ring x k), by simp⟩
  have hrest : ∀ (t : State) (w : WeaveSt), w.standby = t.weave.standby → SameHedge t { t with weave := w } := fun t w h =>
    ⟨SameCmd.refl t, h⟩
  unfold State.ringConfigure
  refine SameHedge.trans ?_ (sameHedge_refreshOwed _ _)
  iterate 3 refine SameHedge.trans ?_ (hrest _ _ rfl)
  exact (((((hset s _ _ _).trans (hset _ _ _ _)).trans (hset _ _ _ _)).trans (hset _ _ _ _)).trans (hset _ _ _ _)).trans
    (hset _ _ _ _)

theorem sameHedge_gateUnused (s : State) : SameHedge s s.gateUnused := ⟨sameCmd_gateUnused s, by simp⟩

/-- What HEDGE leaves: the state HEDGE, WV_STATUS bits 7 to 3 clear, no standby image, the interrupt cause set. -/
def InHedge (t : State) : Prop :=
  t.weaveState = 6 ∧ t.fld Reg.WV_STATUS 3 5 = 0 ∧ t.weave.standby = none ∧ t.bit Reg.WV_IRQ_STATUS 9 = true

theorem InHedge.of_sameHedge {s t : State} (h : InHedge s) (k : SameHedge s t) : InHedge t := by
  obtain ⟨hw, hf, hs, hi⟩ := h
  obtain ⟨kc, ks⟩ := k
  exact ⟨kc.weaveState.trans hw, (kc.fld 3 5 (by decide)).trans hf, ks.trans hs, (kc.bit 9 (by decide)).trans hi⟩

/-- The marks of hedge entry: the state, its bits, the interrupt cause, the event, and the end of the HV240 page policy (R350). -/
def State.hedgeMarked (s : State) (cause : Nat) : State :=
  (((((s.setWeave 6).setFld Reg.WV_STATUS 3 5 0).weaveIrq 9).logEvent 0x511 3 0x40 cause 0).sticky Reg.RAS_STATUS 1).putBit
    Reg.DMC_CFG 3 false

theorem sameCmd_hedgeMarked (s : State) (cause : Nat) :
    SameCmd (((s.setWeave 6).setFld Reg.WV_STATUS 3 5 0).weaveIrq 9) (s.hedgeMarked cause) :=
  ((sameCmd_logEvent _ _ _ _ _ _).trans (sameCmd_putBit _ _ _ _ (by decide))).trans (sameCmd_putBit _ _ _ _ (by decide))

theorem inHedge_hedgeMarked (s t : State) (cause : Nat) (h : SameCmd (s.hedgeMarked cause) t) (hs : t.weave.standby = none) :
    InHedge t := by
  have k := (sameCmd_hedgeMarked s cause).trans h
  refine ⟨?_, ?_, hs, ?_⟩
  · rw [k.weaveState, State.weaveState, State.weaveIrq, State.sticky, State.putBit, State.fld_setFld_ne _ _ _ _ _ _ _ _ (by decide),
      State.fld_setFld_disjoint _ _ _ _ _ _ _ (by omega) (by omega)]
    exact State.weaveState_setWeave s 6 (by omega)
  · rw [k.fld 3 5 (by decide), State.weaveIrq, State.sticky, State.putBit, State.fld_setFld_ne _ _ _ _ _ _ _ _ (by decide),
      State.fld_setFld _ _ _ _ _ (by omega)]
    rfl
  · rw [k.bit 9 (by decide), State.weaveIrq, State.sticky, State.bit_putBit_self _ _ _ _ (by omega)]

theorem inHedge_hedgeEntry (s : State) (cause : Nat) (hw : s.weaveState ≠ 6) : InHedge (s.hedgeEntry cause) := by
  unfold State.hedgeEntry
  rw [if_neg hw]
  extract_lets streams s1 s2 s3 holes s4 _ _ _ s5 s6 im
  have k5 : SameCmd (s3.hedgeMarked cause) s5 := sameCmd_of_regs_eq rfl
  have h5 : InHedge s5 := inHedge_hedgeMarked s3 s5 cause k5 rfl
  have h6 : InHedge s6 := h5.of_sameHedge (sameHedge_takePending _ _ _ _)
  split
  next v i _ _ =>
    extract_lets s7 s8
    have h7 : InHedge s7 := h6.of_sameHedge ((sameHedge_setWindow _ _).trans (sameHedge_hedgeSelect _ _ _))
    have h8 : InHedge s8 := h7.of_sameHedge (sameHedge_foldl _ v.rings (fun t c _ => sameHedge_ringConfigure t c) _)
    exact (h8.of_sameHedge ⟨sameCmd_of_regs_eq rfl, rfl⟩).of_sameHedge (sameHedge_gateUnused _)
  next => exact (h6.of_sameHedge (sameHedge_hedgeSelect _ _ _)).of_sameHedge (sameHedge_gateUnused _)

theorem gives_hedge (s : State) (h : s.weaveState = 2 ∨ s.weaveState = 3 ∨ s.weaveState = 4 ∨ s.weaveState = 5) :
    Gives (exec .weaveHedge s) InHedge := by
  refine ⟨s.cmdHedge, rfl, ?_⟩
  have e : s.cmdHedge = s.hedgeEntry 4 := if_pos h
  rw [e]
  exact inHedge_hedgeEntry s 4 (by omega)

theorem State.cmdHedge_rejected (s : State)
    (h : s.weaveState = 0 ∨ s.weaveState = 1 ∨ s.weaveState = 6 ∨ s.weaveState = 7) : s.cmdHedge = s.cmdRejected :=
  if_neg (by omega)

/-! ### The obligation -/

/-- Settles O36: under the lock each command is a lock violation; otherwise each acts by the branch of its definition that its
state selects (R63 to R69, R382). -/
theorem weaveCommands : Obligations.WeaveCommands := by
  unfold Obligations.WeaveCommands
  intro s m
  refine ⟨fun hl => ⟨gives_lockBarred s m _ hl, gives_lockBarred s m _ hl, gives_lockBarred s m _ hl, gives_lockBarred s m _ hl⟩,
    gives_weaveStart s, fun h => congrArg _ (s.cmdStart_rejected h), gives_hedge s,
    fun h => congrArg _ (s.cmdHedge_rejected h), rfl, fun hl => ?_⟩
  exact ⟨fun h => gives_unlocked s m _ _ hl (cmdLoad_first_spec s h),
    fun hw h7 h4 => gives_unlocked s m _ _ hl (cmdLoad_standby_spec s hw h7 h4),
    fun h => next_unlocked s m _ _ hl (s.cmdLoad_rejected h),
    fun h => gives_unlocked s m _ _ hl (cmdStop_armed_spec s h),
    fun h => next_unlocked s m _ _ hl (s.cmdStop_running h),
    fun h => next_unlocked s m _ _ hl (s.cmdStop_rejected h),
    fun h => next_unlocked s m _ _ hl (if_pos h),
    fun h => next_unlocked s m _ _ hl (if_neg h),
    fun h => gives_unlocked s m _ _ hl (cmdAbandon_running_spec s h),
    fun h => next_unlocked s m _ _ hl (if_neg h)⟩

end Sys2Proof.Machine
end
